-- ==== Sys2Proof/Word.lean ====
section
/-! DEFINITION. The word types: a 32-bit command word (R41, R48) and an 8-bit byte (message, shift register, event data). -/

namespace Sys2Proof

/-- A command word, delivered whole as one 32-bit value; bit 0 is the least significant (R16, R41). -/
abbrev Word := BitVec 32

/-- One byte of the message ROM, of SHIFT or of EVENT_DATA. -/
abbrev Byte := BitVec 8

end Sys2Proof
end

