-- ==== Sys2Proof/Config.lean ====
section
/-! DEFINITION. The implementation parameters (R6 to R14) with their constraints, and the values the spec leaves OPEN as opaque constants. -/

namespace Sys2Proof

/-- The parameters of 00_scope.md R6 to R14, each an argument of the model.
P_PSC_MOD, P_N, P_H, K and P_MSG_LEN are derived from them (Machine/Operands.lean).
P_FAULT_PATTERN (R15) is out of scope (R5): no rule depends on it. -/
structure Params where
  /-- P_CLOCK_HZ (R6). -/
  clockHz : Nat
  /-- P_DIVIDERS, in list order (R7). -/
  dividers : List Nat
  /-- P_OSC_W (R8). -/
  oscW : Nat
  /-- P_MAX_CMP (R8). -/
  maxCmp : Nat
  /-- log2 of P_N: P_N is a power of two (R9). -/
  winLog : Nat
  /-- P_SAMPLE_PERIOD_US (R10). -/
  samplePeriodUs : Nat
  /-- P_QUANTUM_US (R11). -/
  quantumUs : Nat
  /-- P_QUANTUM_CYCLES (R11). -/
  quantumCycles : Nat
  /-- P_BAUD_US (R12). -/
  baudUs : Nat
  /-- P_MSG, the message ROM (R13). -/
  msg : List Byte
  /-- P_TX_PRESENT (R14). -/
  txPresent : Bool
  /-- P_BUSY_PRESENT (R14). -/
  busyPresent : Bool
deriving DecidableEq, Repr

/-- The constraints the spec puts on the parameters: R6 to R13, one line a rule. -/
def Params.valid (p : Params) : Bool :=
  decide (1 ≤ p.clockHz ∧ p.clockHz < 2 ^ 32)
  && decide (1 ≤ p.dividers.length ∧ p.dividers.length ≤ 7)
  && p.dividers.all (fun d => decide (1 ≤ d ∧ d ≤ 65536))
  && decide (1 ≤ p.oscW ∧ p.oscW ≤ 16)
  && decide (p.maxCmp ≤ 2 ^ p.oscW - 1)
  && decide (2 ≤ p.winLog ∧ p.winLog ≤ 15)
  && decide (1 ≤ p.samplePeriodUs ∧ p.samplePeriodUs < 2 ^ 30)
  && decide (1 ≤ p.quantumUs ∧ p.quantumUs ≤ p.samplePeriodUs ∧ 2 * p.quantumUs ≤ p.baudUs)
  && decide (1 ≤ p.quantumCycles ∧ p.quantumCycles < 2 ^ 32)
  && decide (2 ≤ p.baudUs ∧ p.baudUs < 2 ^ 30)
  && decide (1 ≤ p.msg.length ∧ p.msg.length ≤ 65536)

/-- The same constraints as named facts: what a proof takes from a valid parameter set. -/
structure Params.Constraints (p : Params) : Prop where
  clock_pos : 1 ≤ p.clockHz
  clock_lt : p.clockHz < 2 ^ 32
  dividers_pos : 1 ≤ p.dividers.length
  dividers_le : p.dividers.length ≤ 7
  divider_range : ∀ d ∈ p.dividers, 1 ≤ d ∧ d ≤ 65536
  oscW_pos : 1 ≤ p.oscW
  oscW_le : p.oscW ≤ 16
  maxCmp_le : p.maxCmp ≤ 2 ^ p.oscW - 1
  winLog_ge : 2 ≤ p.winLog
  winLog_le : p.winLog ≤ 15
  samplePeriod_pos : 1 ≤ p.samplePeriodUs
  samplePeriod_lt : p.samplePeriodUs < 2 ^ 30
  quantum_pos : 1 ≤ p.quantumUs
  quantum_le_samplePeriod : p.quantumUs ≤ p.samplePeriodUs
  quantum_le_halfBaud : 2 * p.quantumUs ≤ p.baudUs
  quantumCycles_pos : 1 ≤ p.quantumCycles
  quantumCycles_lt : p.quantumCycles < 2 ^ 32
  baud_ge : 2 ≤ p.baudUs
  baud_lt : p.baudUs < 2 ^ 30
  msg_pos : 1 ≤ p.msg.length
  msg_le : p.msg.length ≤ 65536

theorem Params.valid_iff (p : Params) : p.valid = true ↔ p.Constraints := by
  constructor
  · intro h
    simp only [Params.valid, Bool.and_eq_true, decide_eq_true_eq, List.all_eq_true] at h
    obtain ⟨⟨⟨⟨⟨⟨⟨⟨⟨⟨h1, h2⟩, h3⟩, h4⟩, h5⟩, h6⟩, h7⟩, h8⟩, h9⟩, h10⟩, h11⟩ := h
    exact ⟨h1.1, h1.2, h2.1, h2.2, h3, h4.1, h4.2, h5, h6.1, h6.2, h7.1, h7.2, h8.1, h8.2.1, h8.2.2,
      h9.1, h9.2, h10.1, h10.2, h11.1, h11.2⟩
  · intro h
    simp only [Params.valid, Bool.and_eq_true, decide_eq_true_eq, List.all_eq_true]
    exact ⟨⟨⟨⟨⟨⟨⟨⟨⟨⟨⟨h.1, h.2⟩, h.3, h.4⟩, h.5⟩, h.6, h.7⟩, h.8⟩, h.9, h.10⟩, h.11, h.12⟩,
      h.13, h.14, h.15⟩, h.16, h.17⟩, h.18, h.19⟩, h.20, h.21⟩

/-- A parameter set that meets its constraints. A set that breaks them has no machine: the model refuses the
configuration, as 93_implementation_defined.md I16 asks, by having no value of this type for it. -/
abbrev LegalParams := { p : Params // p.valid = true }

/-- P_CLOCK_HZ less 1: OPEN (R6, D5), a free value of its whole range. -/
opaque Config.clockHzLessOne : Fin 4294967295

/-- P_OSC_W less 1: OPEN (R8, D8), a free value of its whole range. -/
opaque Config.oscWLessOne : Fin 16

/-- P_QUANTUM_CYCLES less 1: no source gives a value (R11, D24), a free value of its whole range. -/
opaque Config.quantumCyclesLessOne : Fin 4294967295

/-- The first byte of P_MSG: its content is OPEN (R13, D27). -/
opaque Config.msgFirst : Byte

/-- The bytes of P_MSG after the first; at most 65535 of them count (R13). -/
opaque Config.msgRest : List Byte

/-- The level on the RX_IN pin at power-on: the environment's, under no law (R89, D38). DESIGN CHOICE (log 4), safe. -/
opaque Config.rxInAtPowerOn : Bool

/-- The parameters of State.reset: the spec's default where it gives one (R7 to R12, R14), the free value where it is
OPEN. P_MAX_CMP is its default 2^P_OSC_W - 1 (R8). DESIGN CHOICE (log 2), unsafe for a claim that uses a
default at State.reset. -/
def Config.rawParams : Params where
  clockHz := Config.clockHzLessOne.val + 1
  dividers := [1, 8, 64, 256, 1024]
  oscW := Config.oscWLessOne.val + 1
  maxCmp := 2 ^ (Config.oscWLessOne.val + 1) - 1
  winLog := 5
  samplePeriodUs := 128
  quantumUs := 128
  quantumCycles := Config.quantumCyclesLessOne.val + 1
  baudUs := 22000
  msg := Config.msgFirst :: Config.msgRest.take 65535
  txPresent := true
  busyPresent := true

/-- The parameters of State.reset meet the constraints, whatever the free values are. -/
theorem Config.rawParams_valid : Config.rawParams.valid = true := by
  rw [Params.valid_iff]
  have h1 := Config.clockHzLessOne.isLt
  have h2 := Config.oscWLessOne.isLt
  have h3 := Config.quantumCyclesLessOne.isLt
  have h4 : (Config.msgRest.take 65535).length ≤ 65535 := List.length_take_le _ _
  constructor <;> simp only [Config.rawParams, List.length_cons, List.length_nil, List.mem_cons,
    List.not_mem_nil, or_false, forall_eq_or_imp, forall_eq] <;> omega

/-- The parameter set of State.reset. -/
def Config.params : LegalParams := ⟨Config.rawParams, Config.rawParams_valid⟩

end Sys2Proof
end

