-- ==== Sys2Proof/Syntax.lean ====
section
/-! DEFINITION. The commands: one constructor of Instr per row of spec/opcode_table.json (R49), and the tone slots they name (R51). -/

namespace Sys2Proof

/-- A tone slot index (R20, R51): NONE = 0, MARK = 1, SPACE = 2. Slot names are labels only (R56). -/
inductive Slot where
  | none
  | mark
  | space
deriving DecidableEq, Repr

/-- The commands of R49. SYNTH carries its slot and its 26-bit immediate, the target frequency in Hz (R52);
APPLY carries its slot (R51); no other command has an operand. -/
inductive Instr where
  | nop
  | synth (slot : Slot) (hz : BitVec 26)
  | apply (slot : Slot)
  | txbit
  | sample
  | decode
  | poll
deriving DecidableEq, Repr

end Sys2Proof
end

