-- ==== Sys2Proof/WellFormed.lean ====
section
/-! DEFINITION. Which commands a block has: TXBIT only where the transmit framer is present (R49, R55, R136). -/

namespace Sys2Proof

/-- A command is well formed for a block exactly when R49's extra condition on it holds. SLOT != 3 and the reserved
fields (R54) are in the type of Instr, so the only check left is TXBIT's P_TX_PRESENT (R136). -/
def Instr.wellFormed (txPresent : Bool) : Instr → Bool
  | .nop => true
  | .synth _ _ => true
  | .apply _ => true
  | .txbit => txPresent
  | .sample => true
  | .decode => true
  | .poll => true

end Sys2Proof
end

