-- ==== Sys2Proof/Decode.lean ====
section
/-! DEFINITION. The command encoding of 30_encoding.md: the fields of a word, the decoder, the encoder, and the opcode map as a table of masks. -/

namespace Sys2Proof

/-- Why a word is illegal: the four cases of R55. -/
inductive DecodeError where
  /-- OP in 0x7 .. 0xF. -/
  | reservedOpcode
  /-- SYNTH or APPLY with SLOT = 3. -/
  | slotThree
  /-- a reserved field that is not zero (R54). -/
  | reservedField
  /-- TXBIT without the transmit framer (R136). -/
  | unitAbsent
deriving DecidableEq, Repr

/-- OP = word[31:28] (R48). -/
def opField (w : Word) : BitVec 4 := w.extractLsb' 28 4

/-- SLOT = word[27:26] (R48). -/
def slotField (w : Word) : BitVec 2 := w.extractLsb' 26 2

/-- IMM = word[25:0] (R48). -/
def immField (w : Word) : BitVec 26 := w.extractLsb' 0 26

/-- The slot a SLOT field names; 3 names none (R48, R51). -/
def slotOfField (f : BitVec 2) : Option Slot :=
  if f = 0#2 then some .none
  else if f = 1#2 then some .mark
  else if f = 2#2 then some .space
  else none

/-- A command with no operands: SLOT and IMM must be zero (R54). -/
def decodePlain (w : Word) (i : Instr) : Except DecodeError Instr :=
  if slotField w = 0#2 ∧ immField w = 0#26 then .ok i else .error .reservedField

/-- SYNTH: the slot written and the target frequency (R51, R52). -/
def decodeSynth (w : Word) : Except DecodeError Instr :=
  match slotOfField (slotField w) with
  | none => .error .slotThree
  | some k => .ok (.synth k (immField w))

/-- APPLY: the slot read; IMM must be zero (R51, R54). -/
def decodeApply (w : Word) : Except DecodeError Instr :=
  match slotOfField (slotField w) with
  | none => .error .slotThree
  | some k => if immField w = 0#26 then .ok (.apply k) else .error .reservedField

/-- The decoder of R49 and R55, total on every 32-bit word: exactly one command, or a named error.
`txPresent` is P_TX_PRESENT, the one parameter a word's legality depends on (R136). -/
def decode (txPresent : Bool) (w : Word) : Except DecodeError Instr :=
  match (opField w).toNat with
  | 0 => decodePlain w .nop
  | 1 => decodeSynth w
  | 2 => decodeApply w
  | 3 => if txPresent then decodePlain w .txbit else .error .unitAbsent
  | 4 => decodePlain w .sample
  | 5 => decodePlain w .decode
  | 6 => decodePlain w .poll
  | _ => .error .reservedOpcode

/-- The SLOT field of a slot (R51). -/
def slotCode : Slot → BitVec 2
  | .none => 0#2
  | .mark => 1#2
  | .space => 2#2

/-- A word from its three fields (R48): `OP` at 31:28, `SLOT` at 27:26, `IMM` at 25:0. -/
def encodeFields (op : BitVec 4) (slot : BitVec 2) (imm : BitVec 26) : Word := op ++ slot ++ imm

/-- The encoder: the value patterns of R49, reserved fields zero (R54). -/
def encode : Instr → Word
  | .nop => encodeFields 0x0#4 0#2 0#26
  | .synth k hz => encodeFields 0x1#4 (slotCode k) hz
  | .apply k => encodeFields 0x2#4 (slotCode k) 0#26
  | .txbit => encodeFields 0x3#4 0#2 0#26
  | .sample => encodeFields 0x4#4 0#2 0#26
  | .decode => encodeFields 0x5#4 0#2 0#26
  | .poll => encodeFields 0x6#4 0#2 0#26

/-- A row of R49's opcode map. -/
structure OpcodeRow where
  pattern : Word
  mask : Word
  /-- the extra condition "SLOT != 3" applies -/
  slotNotThree : Bool
  /-- the extra condition "P_TX_PRESENT" applies -/
  needsTx : Bool
deriving DecidableEq, Repr

/-- The row of R49 that a command stands in. -/
def opcodeRow : Instr → OpcodeRow
  | .nop => ⟨0x00000000#32, 0xFFFFFFFF#32, false, false⟩
  | .synth _ _ => ⟨0x10000000#32, 0xF0000000#32, true, false⟩
  | .apply _ => ⟨0x20000000#32, 0xF3FFFFFF#32, true, false⟩
  | .txbit => ⟨0x30000000#32, 0xFFFFFFFF#32, false, true⟩
  | .sample => ⟨0x40000000#32, 0xFFFFFFFF#32, false, false⟩
  | .decode => ⟨0x50000000#32, 0xFFFFFFFF#32, false, false⟩
  | .poll => ⟨0x60000000#32, 0xFFFFFFFF#32, false, false⟩

/-- R49's opcode map, in the table's order. -/
def opcodeTable : List OpcodeRow :=
  [opcodeRow .nop, opcodeRow (.synth .none 0#26), opcodeRow (.apply .none), opcodeRow .txbit,
   opcodeRow .sample, opcodeRow .decode, opcodeRow .poll]

/-- A word matches a row: `(word & mask) == match`, and the extra condition holds (R49). -/
def OpcodeRow.accepts (r : OpcodeRow) (txPresent : Bool) (w : Word) : Bool :=
  decide (w &&& r.mask = r.pattern)
  && (!r.slotNotThree || decide (slotField w ≠ 3#2))
  && (!r.needsTx || txPresent)

/-- A word is legal exactly when it matches one row of R49. -/
def legalWord (txPresent : Bool) (w : Word) : Bool :=
  opcodeTable.any (fun r => r.accepts txPresent w)

/-- The word whose bits are `w` in the opcode table's numbering. The block's only length is 32 bits (R48), so bits from
`nbits` on are 0, and bits from 32 on name no bit of a command. -/
def tableWord (nbits w : Nat) : Word := BitVec.ofNat 32 (w % 2 ^ nbits)

/-- The decoder on a table row's bits, for the parameter set of State.reset, where P_TX_PRESENT is its default true (R14).
DESIGN CHOICE (log 11), safe. -/
def decodeTableWord (nbits w : Nat) : Option Instr :=
  match decode Config.params.val.txPresent (tableWord nbits w) with
  | .ok i => some i
  | .error _ => none

end Sys2Proof
end

