-- ==== Sys2Proof/Machine/State.lean ====
section
/-! DEFINITION. The block's state (10_state.md R24 to R37), its reset value (R145), and the reasons a step can stop. -/

namespace Sys2Proof.Machine

/-- A ToneConfig, the content of a tone slot (R24). Its error fraction is the exact rational errNum / errDen. -/
structure ToneConfig where
  /-- SEL: 0 = oscillator disabled, i >= 1 selects divider d_i. -/
  sel : Nat
  /-- CMP: the compare threshold. -/
  cmp : Nat
  /-- ERR_NUM. -/
  errNum : Nat
  /-- ERR_DEN. -/
  errDen : Nat
deriving DecidableEq, Repr

/-- The oscillator-disabled configuration: SEL 0, CMP 0, error 0 / 1 (R24, R62). -/
def ToneConfig.disabled : ToneConfig := ⟨0, 0, 0, 1⟩

/-- EVENT_KIND (R33, R111). -/
inductive EventKind where
  | noEvent
  | startBitError
  | stopBitError
  | byteDecoded
deriving DecidableEq, Repr

/-- FAULT (R37, R129). Code 3 is never written (I6) and has no value here. -/
inductive FaultCode where
  | none
  | configUnreachable
  | illegalCommand
deriving DecidableEq, Repr

/-- What the outside of the block does next: one atomic step each (R43, R45, R89, R144). -/
inductive Input where
  /-- one cycle of the P_CLOCK_HZ clock: a CLK step. -/
  | clk
  /-- the sequencer issues a command word: a CMD step. -/
  | cmd (word : Word)
  /-- the environment drives the RX_IN pin to a level. -/
  | rxLevel (level : Bool)
  /-- the reset input is asserted. -/
  | reset
deriving DecidableEq, Repr

/-- Why a step stops. None is a fault of the block: the block's faults (R129) are next states in which HALTED = 1.
Each names an element that does not exist, named by a register outside its legal values (10_state.md), in states no run
from reset reaches (Safety.lean's invariant). All are SAFE: the model stops where the rules define nothing. -/
inductive Fault where
  /-- raised by the oscillator's CLK step when OSC_SEL > K: P_DIVIDERS has no such entry (R27, R71, I5). Safe. -/
  | noSuchDivider
  /-- raised by TXBIT on a data cell when TXI >= P_MSG_LEN: MSG has no such byte (R28, R42). Safe. -/
  | noSuchMessageByte
  /-- raised by TXBIT when TXB > 9: a frame has no such cell (R28, R78). Safe. -/
  | noSuchFrameCell
  /-- raised by SAMPLE on a crossing when WIN has no bit WPOS (R30, R42). Safe. -/
  | noSuchWindowBit
  /-- raised by SAMPLE on a crossing when the bucket of the evicted sample is 0 (excluded by R31, R93). Safe. -/
  | histogramUnderflow
deriving DecidableEq, Repr

/-- Why an instruction has no meaning in the model. -/
inductive Refusal where
  /-- raised by exec's arm of an instruction that is not modelled yet. Safe. No arm raises it now. -/
  | notModelled (mnemonic : String)
deriving DecidableEq, Repr

/-- The state of the block. Numeric registers are integers, as R17 has them; their legal values, and so their widths,
are the invariant of Safety.lean. A 1-bit register or pin is a Bool, true being 1 and high (R20). -/
structure State where
  /-- the parameters R6 to R14: the model's field, constant under every step (R144). DESIGN CHOICE (log 1), safe. -/
  par : LegalParams
  /-- CFG[0] (R24). -/
  cfgNone : ToneConfig
  /-- CFG[1] (R24). -/
  cfgMark : ToneConfig
  /-- CFG[2] (R24). -/
  cfgSpace : ToneConfig
  /-- OSC_SEL (R27). -/
  oscSel : Nat
  /-- OSC_CMP (R27). -/
  oscCmp : Nat
  /-- OSC_CNT (R27). -/
  oscCnt : Nat
  /-- PSC (R27). -/
  psc : Nat
  /-- the level the TONE_OUT pin holds (R25). -/
  toneOut : Bool
  /-- TXI (R28). -/
  txi : Nat
  /-- TXB (R28). -/
  txb : Nat
  /-- TB_CNT (R29). -/
  tbCnt : Nat
  /-- OVF (R29). -/
  ovf : Bool
  /-- ELAPSED (R29). -/
  elapsed : Nat
  /-- SACC (R30). -/
  sacc : Nat
  /-- WIN[0] .. WIN[P_N - 1] (R30). -/
  win : List Bool
  /-- WPOS (R30). -/
  wpos : Nat
  /-- HIST_LO (R30). -/
  histLo : Nat
  /-- HIST_HI (R30). -/
  histHi : Nat
  /-- LEVEL (R30). -/
  level : Bool
  /-- EDGE (R30). -/
  edge : Bool
  /-- POS (R32, R99). -/
  pos : Nat
  /-- BT (R32). -/
  bt : Nat
  /-- HALF (R32). -/
  half : Bool
  /-- SHIFT (R32). -/
  shift : Byte
  /-- EVENT_KIND (R33). -/
  eventKind : EventKind
  /-- EVENT_DATA (R33). -/
  eventData : Byte
  /-- HALTED (R37). -/
  halted : Bool
  /-- FAULT (R37). -/
  faultCode : FaultCode
  /-- FAULT_CMD (R37). -/
  faultCmd : Word
  /-- the level on the RX_IN pin (R25, R89): the environment's. DESIGN CHOICE (log 4), safe. -/
  rxIn : Bool
  /-- what the outside does next, the first first: the model's field (R45). DESIGN CHOICE (log 3), safe. -/
  inputs : List Input
deriving DecidableEq, Repr

/-- The parameter values of a state. -/
abbrev State.p (s : State) : Params := s.par.val

/-- Every register at its reset value (R145), for a block of parameters `par`. Reset writes neither the RX_IN pin nor
what the outside does next. -/
def State.resetWith (par : LegalParams) (rxIn : Bool) (inputs : List Input) : State where
  par := par
  cfgNone := ToneConfig.disabled
  cfgMark := ToneConfig.disabled
  cfgSpace := ToneConfig.disabled
  oscSel := 0
  oscCmp := 0
  oscCnt := 0
  psc := 0
  toneOut := false
  txi := 0
  txb := 0
  tbCnt := 0
  ovf := false
  elapsed := 0
  sacc := 0
  win := List.replicate (2 ^ par.val.winLog) false
  wpos := 0
  histLo := 2 ^ par.val.winLog
  histHi := 0
  level := false
  edge := false
  pos := 0
  bt := 0
  half := false
  shift := 0#8
  eventKind := .noEvent
  eventData := 0#8
  halted := false
  faultCode := .none
  faultCmd := 0#32
  rxIn := rxIn
  inputs := inputs

/-- The machine right after power-on reset: every register as R145 says, the parameters Config's, the RX_IN pin at a
free level, no input pending (R147: the block waits for its first command, and only the CLK steps go on). -/
def State.reset : State := State.resetWith Config.params Config.rxInAtPowerOn []

end Sys2Proof.Machine
end

