-- ==== Sys2Proof/Machine/Operands.lean ====
section
/-! DEFINITION. Operand forms: the derived parameters, the immediate, the divider a selector names, the cells of a frame, and the spec's rounding. -/

namespace Sys2Proof.Machine

/-- P_N, the sample window capacity (R9). -/
def winSize (p : Params) : Nat := 2 ^ p.winLog

/-- P_H = P_N / 4, the hysteresis margin (R9). -/
def hysteresis (p : Params) : Nat := winSize p / 4

/-- P_PSC_MOD, the least common multiple of the dividers (R7). -/
def pscMod (p : Params) : Nat := p.dividers.foldr Nat.lcm 1

/-- K, the length of P_DIVIDERS (R7). -/
def numDividers (p : Params) : Nat := p.dividers.length

/-- P_MSG_LEN (R13). -/
def msgLen (p : Params) : Nat := p.msg.length

/-- L = floor((P_N + P_H) / 2) + 1, the count at which the debounced level flips (R94). -/
def flipCount (p : Params) : Nat := (winSize p + hysteresis p) / 2 + 1

/-- SYNTH's target frequency: `target_hz = zext_32(word[25:0])` (R52). -/
def targetHz (imm : BitVec 26) : Nat := (imm.setWidth 32).toNat

/-- d_i, the divider that selector i >= 1 names; 0 and values above K name none (R7, R24, R71). -/
def dividerOf (p : Params) (sel : Nat) : Option Nat :=
  match sel with
  | 0 => none
  | i + 1 => p.dividers[i]?

/-- The tone a level is sent as: MARK for 1, SPACE for 0 (R20, R78). -/
def slotOfBit (b : Bool) : Slot := if b then .mark else .space

/-- A level as the integer 0 or 1 (R20). -/
def bitValue (b : Bool) : Nat := if b then 1 else 0

/-- The data cell `txb` = 1 .. 8 of a byte: bit `8 - txb`, so bit 7 goes first (R79). -/
def dataCell (byte : Byte) (txb : Nat) : Bool := byte.getLsbD (8 - txb)

/-- The bit sequence of one byte in cell order: start 0, data bits MSB first, stop 1 (R83). -/
def frameBits (byte : Byte) : List Bool :=
  [false, byte.getLsbD 7, byte.getLsbD 6, byte.getLsbD 5, byte.getLsbD 4, byte.getLsbD 3, byte.getLsbD 2,
   byte.getLsbD 1, byte.getLsbD 0, true]

/-- Shifting a sampled level in at bit 0: `(shift * 2 + level) mod 256` (R40, R106). -/
def shiftIn (shift : Byte) (level : Bool) : Byte := BitVec.ofNat 8 ((shift.toNat * 2 + bitValue level) % 256)

/-- `round_half_away(x)`: to the nearest integer, ties away from zero (R18). -/
def roundHalfAway (x : ℚ) : ℤ := if 0 ≤ x then ⌊x + 1 / 2⌋ else -⌊-x + 1 / 2⌋

/-- The error fraction of a ToneConfig as a rational (R24). -/
def errorFraction (c : ToneConfig) : ℚ := (c.errNum : ℚ) / (c.errDen : ℚ)

/-- `actual_hz = P_CLOCK_HZ / (2 * d * (c + 1))`, the frequency of divider d and compare value c (R61, R65). -/
def actualHz (p : Params) (d c : Nat) : ℚ := (p.clockHz : ℚ) / (2 * (d : ℚ) * ((c : ℚ) + 1))

end Sys2Proof.Machine
end

