-- ==== Sys2Proof/Machine/Flags.lean ====
section
/-! DEFINITION. The computation of every 1-bit flag (R38): LEVEL, EDGE, HALF's midpoint, OVF, BUSY, and the codes of EVENT_KIND and FAULT. -/

namespace Sys2Proof.Machine

/-- The debounced level with hysteresis (R90, 90_conflicts.md C1): from 1 to 0 exactly when lo > hi + H, from 0 to 1
exactly when hi > lo + H; both comparisons strict. -/
def debounced (level : Bool) (lo hi h : Nat) : Bool :=
  if level then (if lo > hi + h then false else true)
  else (if hi > lo + h then true else false)

/-- EDGE on a crossing: the new level differs from the previous one (R91). -/
def edgeFlag (old new : Bool) : Bool := old != new

/-- A SAMPLE crosses the sample period: `SACC + ELAPSED >= P_SAMPLE_PERIOD_US` (R87). -/
def crosses (p : Params) (acc : Nat) : Bool := decide (acc ≥ p.samplePeriodUs)

/-- The midpoint of the current cell: HALF = 0 and `2 * BT >= P_BAUD_US` (R104). -/
def atMidpoint (p : Params) (half : Bool) (bt : Nat) : Bool := !half && decide (2 * bt ≥ p.baudUs)

/-- The full period of the current cell: the state is active and `BT >= P_BAUD_US` (R108). -/
def atFullPeriod (p : Params) (pos bt : Nat) : Bool := decide (pos ≠ 0) && decide (bt ≥ p.baudUs)

/-- The timebase counter overflows on this CLK step (R120). -/
def tbWraps (p : Params) (tbCnt : Nat) : Bool := decide (tbCnt = p.quantumCycles - 1)

/-- The decode-in-progress indication: POS != 0 (R34). -/
def busyFlag (pos : Nat) : Bool := decide (pos ≠ 0)

/-- The 2-bit code of EVENT_KIND (R33, R111). -/
def eventCode : EventKind → BitVec 2
  | .noEvent => 0#2
  | .startBitError => 1#2
  | .stopBitError => 2#2
  | .byteDecoded => 3#2

/-- The 2-bit code of FAULT (R37, R129). -/
def faultBits : FaultCode → BitVec 2
  | .none => 0#2
  | .configUnreachable => 1#2
  | .illegalCommand => 2#2

end Sys2Proof.Machine
end

