-- ==== Sys2Proof/Machine/Ops.lean ====
section
/-! DEFINITION. The named operations over the state: the halt gate, fault entry, the tone slots, loading the oscillator, reset, and the outside's inputs. -/

namespace Sys2Proof.Machine

/-- What one step of the block answers. -/
abbrev Result := Host.Outcome State Fault Refusal

/-- While HALTED = 1 every command is ignored and changes no state (R133); else it does what it does. -/
def unlessHalted (s : State) (r : Result) : Result := if s.halted then .next s else r

/-- Fault entry (R132): HALTED, FAULT and FAULT_CMD, and nothing else; a next state, DEDUCED (log 7), safe. It is the one way into the halt. There is no return
from it (R134): only reset leaves it (R146). -/
def raiseFault (code : FaultCode) (word : Word) (s : State) : State :=
  { s with halted := true, faultCode := code, faultCmd := word }

/-- A word that is no legal command: ILLEGAL_COMMAND with no other effect (R130), ignored while halted (R133, R135). -/
def illegalCommand (word : Word) (s : State) : Result :=
  unlessHalted s (.next (raiseFault .illegalCommand word s))

/-- CFG[k] (R24, R39). -/
def readSlot (s : State) : Slot → ToneConfig
  | .none => s.cfgNone
  | .mark => s.cfgMark
  | .space => s.cfgSpace

/-- `CFG[k] <- c`, the whole record (R24, R39). -/
def writeSlot (s : State) (k : Slot) (c : ToneConfig) : State :=
  match k with
  | .none => { s with cfgNone := c }
  | .mark => { s with cfgMark := c }
  | .space => { s with cfgSpace := c }

/-- Loading the oscillator from a configuration: SEL and CMP copied and the counter zeroed in the same atomic step
(R68, R69, R75). PSC and TONE_OUT are not written. -/
def loadOscillator (s : State) (c : ToneConfig) : State :=
  { s with oscSel := c.sel, oscCmp := c.cmp, oscCnt := 0 }

/-- `emit Event(kind, data)` (R19, R111). -/
def emitEvent (s : State) (kind : EventKind) (data : Byte) : State :=
  { s with eventKind := kind, eventData := data }

/-- Reset (R144, R145): every register at its reset value in one step. The parameters, the RX_IN pin and what the
outside does next are no registers of the block and stay. DEDUCED (log 9), safe. -/
def resetBlock (s : State) : State := State.resetWith s.par s.rxIn s.inputs

/-- The environment drives the RX_IN pin (R89). -/
def driveRx (s : State) (level : Bool) : State := { s with rxIn := level }

/-- The next agent's step (R45), and the state without it. When the outside does nothing, the clock runs on: CLK steps
keep happening (R120, R147, R157). DESIGN CHOICE (log 3), safe. -/
def nextInput (s : State) : Input × State :=
  match s.inputs with
  | [] => (.clk, s)
  | i :: rest => (i, { s with inputs := rest })

/-- The outside issues the command word `w` before anything else it does. -/
def issue (s : State) (w : Word) : State := { s with inputs := .cmd w :: s.inputs }

end Sys2Proof.Machine
end

