-- ==== Sys2Proof/Machine/Control.lean ====
section
/-! DEFINITION. NOP and POLL, and the timebase's part of a CLK step (45_control_timebase.md). -/

namespace Sys2Proof.Machine

/-- NOP (R119): no state change. -/
def execNop (s : State) : Result := unlessHalted s (.next s)

/-- What POLL leaves: the overflow flag turned into one quantum of elapsed time, and cleared (R123). -/
def polled (s : State) : State :=
  if s.ovf then { s with elapsed := s.p.quantumUs, ovf := false } else { s with elapsed := 0 }

/-- POLL (R123). -/
def execPoll (s : State) : Result := unlessHalted s (.next (polled s))

/-- TB_CNT after a CLK step (R120). -/
def tbCntClk (s : State) : Nat := if tbWraps s.p s.tbCnt then 0 else s.tbCnt + 1

/-- OVF after a CLK step: sticky, set on a wrap (R120, R121). -/
def ovfClk (s : State) : Bool := if tbWraps s.p s.tbCnt then true else s.ovf

end Sys2Proof.Machine
end

