-- ==== Sys2Proof/Machine/FrameDecoder.lean ====
section
/-! DEFINITION. DECODE: one invocation of the frame state machine (44_frame_decoder.md). -/

namespace Sys2Proof.Machine

/-- The variables of one DECODE (R101): the frame's registers and the event reported. -/
structure FrameVars where
  pos : Nat
  bt : Nat
  half : Bool
  shift : Byte
  kind : EventKind
  data : Byte
deriving DecidableEq, Repr

/-- The midpoint action in the start cell: high is a start-bit error, low confirms the start bit (R105). -/
def startMidpoint (level : Bool) (v : FrameVars) : FrameVars :=
  if level then { v with kind := .startBitError, pos := 0 } else v

/-- The midpoint action in a data cell: the level is shifted in (R106). -/
def dataMidpoint (level : Bool) (v : FrameVars) : FrameVars := { v with shift := shiftIn v.shift level }

/-- The midpoint action in the stop cell: high reports the byte, low a stop-bit error; the frame ends (R107). -/
def stopMidpoint (level : Bool) (v : FrameVars) : FrameVars :=
  if level then { v with kind := .byteDecoded, data := v.shift, pos := 0 }
  else { v with kind := .stopBitError, pos := 0 }

/-- The midpoint test and action (R104 to R107): POS 1 is Start, up to 9 a data bit, else Stop (R99). -/
def cellMidpoint (p : Params) (level : Bool) (v : FrameVars) : FrameVars :=
  if atMidpoint p v.half v.bt then
    let w := { v with half := true }
    if v.pos = 1 then startMidpoint level w
    else if v.pos ≤ 9 then dataMidpoint level w
    else stopMidpoint level w
  else v

/-- The full-period advance with carry-over (R108). -/
def cellFullPeriod (p : Params) (v : FrameVars) : FrameVars :=
  if atFullPeriod p v.pos v.bt then { v with pos := v.pos + 1, bt := v.bt - p.baudUs, half := false } else v

/-- Entering Idle clears BT, HALF and SHIFT (R110). -/
def clearIdle (v : FrameVars) : FrameVars :=
  if v.pos = 0 then { v with bt := 0, half := false, shift := 0#8 } else v

/-- An active DECODE: the timer, then the midpoint test, then the full-period test, then the clearing (R103, R109). -/
def activeFrame (s : State) : FrameVars :=
  clearIdle (cellFullPeriod s.p (cellMidpoint s.p s.level ⟨s.pos, s.bt + s.elapsed, s.half, s.shift, .noEvent, 0#8⟩))

/-- An idle DECODE: a falling edge enters Start with a zero timer; anything else changes nothing (R102). -/
def idleFrame (s : State) : FrameVars :=
  if s.edge = true ∧ s.level = false then ⟨1, 0, false, 0#8, .noEvent, 0#8⟩
  else ⟨s.pos, s.bt, s.half, s.shift, .noEvent, 0#8⟩

/-- The variables after one DECODE (R101). -/
def nextFrame (s : State) : FrameVars := if s.pos = 0 then idleFrame s else activeFrame s

/-- Writing the decoder's registers and the event (R100, R111). -/
def writeFrame (s : State) (v : FrameVars) : State :=
  emitEvent { s with pos := v.pos, bt := v.bt, half := v.half, shift := v.shift } v.kind v.data

/-- DECODE (R101). -/
def execDecode (s : State) : Result := unlessHalted s (.next (writeFrame s (nextFrame s)))

end Sys2Proof.Machine
end

