-- ==== Sys2Proof/Machine/Sampler.lean ====
section
/-! DEFINITION. SAMPLE: the sample window, its histogram, and the debounced level (43_signal_sampler.md). -/

namespace Sys2Proof.Machine

/-- Evicting the oldest sample, WIN[WPOS], from its histogram bucket (R88, step 1). -/
def evictOldest (s : State) : Except Fault State :=
  match s.win[s.wpos]? with
  | none => .error .noSuchWindowBit
  | some true => if s.histHi = 0 then .error .histogramUnderflow else .ok { s with histHi := s.histHi - 1 }
  | some false => if s.histLo = 0 then .error .histogramUnderflow else .ok { s with histLo := s.histLo - 1 }

/-- Inserting a fresh raw level at WPOS and counting it (R88, step 2). -/
def insertNewest (s : State) (raw : Bool) : State :=
  if raw then { s with win := s.win.set s.wpos raw, histHi := s.histHi + 1 }
  else { s with win := s.win.set s.wpos raw, histLo := s.histLo + 1 }

/-- WPOS moves to the next-oldest sample, mod P_N (R88, step 3). -/
def advanceWindow (s : State) : State := { s with wpos := (s.wpos + 1) % winSize s.p }

/-- LEVEL and EDGE from the counts after eviction and insertion (R90, R91). -/
def updateLevel (s : State) : State :=
  let new := debounced s.level s.histLo s.histHi (hysteresis s.p)
  { s with level := new, edge := edgeFlag s.level new }

/-- One sample: evict, read RX_IN, insert, advance, debounce (R86, R88, R89). -/
def takeSample (s : State) : Result :=
  match evictOldest s with
  | .error f => .fault f
  | .ok s1 => .next (updateLevel (advanceWindow (insertNewest s1 s.rxIn)))

/-- The sampler's tick (R86): on a crossing the period is subtracted, the remainder kept, and one sample taken (R87);
else only the accumulator moves and EDGE is cleared (R92). -/
def sampleTick (s : State) : Result :=
  let acc := s.sacc + s.elapsed
  if crosses s.p acc then takeSample { s with sacc := acc - s.p.samplePeriodUs }
  else .next { s with sacc := acc, edge := false }

/-- SAMPLE (R86). -/
def execSample (s : State) : Result := unlessHalted s (sampleTick s)

end Sys2Proof.Machine
end

