-- ==== Sys2Proof/Machine/Synthesizer.lean ====
section
/-! DEFINITION. SYNTH: the exhaustive search for a divider and compare value (40_synthesizer.md). -/

namespace Sys2Proof.Machine

/-- The compare value of divider d for target T: `floor((P_CLOCK_HZ - d*T) / (2*d*T))`, or none when the candidate is below
range, `P_CLOCK_HZ <= d*T` (R59). -/
def compareValue (clockHz d t : Nat) : Option Nat :=
  if clockHz ≤ d * t then none else some ((clockHz - d * t) / (2 * d * t))

/-- ERR_DEN of (d, c) for target T: `2*d*(c+1)*T` (R61). -/
def candidateDen (d c t : Nat) : Nat := 2 * d * (c + 1) * t

/-- ERR_NUM of (d, c) for target T: `abs(P_CLOCK_HZ - 2*d*(c+1)*T)` (R61). -/
def candidateNum (clockHz d c t : Nat) : Nat := ((clockHz : Int) - (candidateDen d c t : Int)).natAbs

/-- The candidate of the i-th divider d: accepted exactly when 0 <= c <= P_MAX_CMP (R60); its configuration is what
SYNTH would write (R58). -/
def candidate (p : Params) (t i d : Nat) : Option ToneConfig :=
  match compareValue p.clockHz d t with
  | none => none
  | some c =>
    if c > p.maxCmp then none
    else some { sel := i, cmp := c, errNum := candidateNum p.clockHz d c t, errDen := candidateDen d c t }

/-- Errors compared exactly, as rationals: num_a / den_a < num_b / den_b (R60). -/
def lessError (a b : ToneConfig) : Bool := decide (a.errNum * b.errDen < b.errNum * a.errDen)

/-- Keeping the better of the best so far and the next candidate; on equal errors the earlier one stays (R58, R60). -/
def keepBest (best next : Option ToneConfig) : Option ToneConfig :=
  match best, next with
  | best, none => best
  | none, some n => some n
  | some b, some n => if lessError n b then some n else some b

/-- The loop of R58 over the dividers from position i on, in list order. -/
def searchFrom (p : Params) (t : Nat) : Nat → Option ToneConfig → List Nat → Option ToneConfig
  | _, best, [] => best
  | i, best, d :: ds => searchFrom p t (i + 1) (keepBest best (candidate p t i d)) ds

/-- The configuration SYNTH writes for target T: the disabled one for T = 0 (R62), else the search's best, if any divider
is accepted (R58, R60, R63). -/
def synthesize (p : Params) (t : Nat) : Option ToneConfig :=
  if t = 0 then some ToneConfig.disabled else searchFrom p t 1 none p.dividers

/-- The state after SYNTH: CFG[SLOT] written whole, or, when no divider is accepted, CONFIG_UNREACHABLE with the slot
unchanged (R58, R63). FAULT_CMD is the command's own word, DEDUCED (log 8), safe. -/
def synthesized (s : State) (k : Slot) (hz : BitVec 26) : State :=
  match synthesize s.p (targetHz hz) with
  | some c => writeSlot s k c
  | none => raiseFault .configUnreachable (encode (.synth k hz)) s

/-- SYNTH (R58). -/
def execSynth (k : Slot) (hz : BitVec 26) (s : State) : Result := unlessHalted s (.next (synthesized s k hz))

end Sys2Proof.Machine
end

