-- ==== Sys2Proof/Machine/ToneDriver.lean ====
section
/-! DEFINITION. APPLY, the oscillator's part of a CLK step (41_tone_driver.md), and the CLK step as a whole (R122). -/

namespace Sys2Proof.Machine

/-- APPLY (R68): OSC_SEL and OSC_CMP from the slot, OSC_CNT zeroed. -/
def execApply (k : Slot) (s : State) : Result := unlessHalted s (.next (loadOscillator s (readSlot s k)))

/-- PSC after a CLK step (R70): it counts whether or not the oscillator is enabled (R71). -/
def pscClk (s : State) : Nat := (s.psc + 1) % pscMod s.p

/-- The oscillator registers that a prescaled tick may change: OSC_CNT and TONE_OUT. -/
structure OscPair where
  cnt : Nat
  tone : Bool
deriving DecidableEq, Repr

/-- A prescaled tick (R70): on a compare match the counter clears and TONE_OUT toggles; else it counts. -/
def oscTick (s : State) : OscPair :=
  if s.oscCnt = s.oscCmp then ⟨0, !s.toneOut⟩
  else ⟨(s.oscCnt + 1) % 2 ^ s.p.oscW, s.toneOut⟩

/-- OSC_CNT and TONE_OUT after a CLK step (R70). Disabled, they hold (R71). OSC_SEL above K names no divider, and no rule
says what the oscillator does then (I5): a fault. -/
def oscClk (s : State) : Except Fault OscPair :=
  if s.oscSel = 0 then .ok ⟨s.oscCnt, s.toneOut⟩
  else
    match dividerOf s.p s.oscSel with
    | none => .error .noSuchDivider
    | some d => if pscClk s % d = 0 then .ok (oscTick s) else .ok ⟨s.oscCnt, s.toneOut⟩

/-- One CLK step (R70, R120, R122): the oscillator and the timebase in one atomic step, both from the state before it. It
runs while halted too (R133). -/
def clkStep (s : State) : Result :=
  match oscClk s with
  | .error f => .fault f
  | .ok o => .next { s with psc := pscClk s, oscCnt := o.cnt, toneOut := o.tone, tbCnt := tbCntClk s, ovf := ovfClk s }

end Sys2Proof.Machine
end

