-- ==== Sys2Proof/Machine/TransmitFramer.lean ====
section
/-! DEFINITION. TXBIT: one bit cell of a transmitted frame (42_transmit_framer.md). -/

namespace Sys2Proof.Machine

/-- The level of the cell at (TXI, TXB): start 0, stop 1 (R80), else a data bit of MSG[TXI] (R79). An index that names no
cell or no byte is outside the registers' legal values (R28): a fault. -/
def currentCell (s : State) : Except Fault Bool :=
  if s.txb = 0 then .ok false
  else if s.txb = 9 then .ok true
  else if s.txb > 9 then .error .noSuchFrameCell
  else
    match s.p.msg[s.txi]? with
    | none => .error .noSuchMessageByte
    | some byte => .ok (dataCell byte s.txb)

/-- Advancing to the next cell; after the stop cell to the next byte, mod P_MSG_LEN (R78, R81). -/
def advanceCell (s : State) : State :=
  if s.txb = 9 then { s with txb := 0, txi := (s.txi + 1) % msgLen s.p } else { s with txb := s.txb + 1 }

/-- One cell: its tone is applied as APPLY does, counter reset included (R82), and the framer advances (R78). -/
def sendCell (s : State) : Result :=
  match currentCell s with
  | .error f => .fault f
  | .ok b => .next (advanceCell (loadOscillator s (readSlot s (slotOfBit b))))

/-- TXBIT (R78); without the transmit framer it is an illegal command (R136), DEDUCED (log 10), safe. -/
def execTxbit (s : State) : Result :=
  if s.p.txPresent then unlessHalted s (sendCell s) else illegalCommand (encode .txbit) s

end Sys2Proof.Machine
end

