-- ==== Sys2Proof/Machine/Dispatch.lean ====
section
/-! DEFINITION. The meaning of every command: one arm per constructor of Instr. -/

namespace Sys2Proof.Machine

def exec (i : Instr) (s : State) : Host.Outcome State Fault Refusal :=
  match i with
  | .nop => Sys2Proof.Machine.execNop s
  | .synth slot hz => Sys2Proof.Machine.execSynth slot hz s
  | .apply slot => Sys2Proof.Machine.execApply slot s
  | .txbit => Sys2Proof.Machine.execTxbit s
  | .sample => Sys2Proof.Machine.execSample s
  | .decode => Sys2Proof.Machine.execDecode s
  | .poll => Sys2Proof.Machine.execPoll s

end Sys2Proof.Machine
end

