-- ==== Sys2Proof/Machine/Command.lean ====
section
/-! DEFINITION. A CMD step on a command word, and a step on any input: the priority of R135 and the agents of R43. -/

namespace Sys2Proof.Machine

/-- A CMD step: a legal word runs its command, any other raises ILLEGAL_COMMAND; both are ignored while halted
(R130, R133, R135). -/
def runWord (w : Word) (s : State) : Result :=
  match decode s.p.txPresent w with
  | .ok i => exec i s
  | .error _ => illegalCommand w s

/-- One atomic step of the agent that acts (R43, R45): CLK, CMD, the environment of RX_IN, or the reset input. -/
def runInput (i : Input) (s : State) : Result :=
  match i with
  | .clk => clkStep s
  | .cmd w => runWord w s
  | .rxLevel b => .next (driveRx s b)
  | .reset => .next (resetBlock s)

/-- A sequence of atomic steps, in the order given (R45); it stops at the first that stops. What the outside does
afterwards, the state's own `inputs`, is not touched. -/
def runInputs : List Input → State → Result
  | [], s => .next s
  | i :: rest, s =>
    match runInput i s with
    | .next t => runInputs rest t
    | .fault f => .fault f
    | .refused r => .refused r

/-- `n` CLK steps with no command between them. -/
def runClks (n : Nat) (s : State) : Result := runInputs (List.replicate n .clk) s

end Sys2Proof.Machine
end

