-- ==== Sys2Proof/Machine/Step.lean ====
section
/-! DEFINITION. One step of the machine, and the placing of one command word as the next thing that happens. -/

namespace Sys2Proof.Machine

/-- One step: the next input's (R45). -/
def step (s : State) : Host.Outcome State Fault Refusal := runInput (nextInput s).1 (nextInput s).2

/-- The sequencer issues the table word `w` next: `step` then runs exactly it. DESIGN CHOICE (log 3), safe. -/
def State.withFetchWord (s : State) (nbits w : Nat) : State := issue s (tableWord nbits w)

end Sys2Proof.Machine
end

