-- ==== Sys2Proof/Machine/Sequencer.lean ====
section
/-! DEFINITION. The sequencer's side of the command port: pseudo-commands, the role programs, and the assembler's syntax (R50, R53, R126, R127). -/

namespace Sys2Proof.Machine

/-- The pseudo-commands of R50. SETUP carries the mark and space frequencies in Hz. -/
inductive Pseudo where
  | rxiter
  | setup (markHz spaceHz : BitVec 26)
  | toneOff
deriving DecidableEq, Repr

/-- The commands a pseudo-command expands to, in order (R50); each is a CMD step of its own. -/
def expandPseudo : Pseudo → List Instr
  | .rxiter => [.poll, .sample, .decode]
  | .setup m s => [.synth .none 0#26, .synth .mark m, .synth .space s]
  | .toneOff => [.apply .none]

/-- Commands as the words the sequencer issues. -/
def wordsOf (is : List Instr) : List Word := is.map encode

/-- The receiver's program up to iteration `n` of its endless loop: SETUP, the APPLYs its variant needs, then RXITER again
and again (R126). Which APPLYs those are R126 leaves open: they are the argument `applies`, any list of slots. That they
stand after the whole of SETUP, and not between its SYNTHs, is the model's. DESIGN CHOICE (log 21), safe. -/
def receiverProgram (markHz spaceHz : BitVec 26) (applies : List Slot) (n : Nat) : List Instr :=
  expandPseudo (.setup markHz spaceHz) ++ applies.map .apply ++ (List.replicate n (expandPseudo .rxiter)).flatten

/-- The transmitter's program up to `n` cells of its endless loop: SETUP, then TXBIT again and again (R127). -/
def transmitterProgram (markHz spaceHz : BitVec 26) (n : Nat) : List Instr :=
  expandPseudo (.setup markHz spaceHz) ++ List.replicate n .txbit

/-- The value of a digit in a base up to 16. -/
def digitValue (base : Nat) (c : Char) : Option Nat :=
  let v :=
    if '0' ≤ c ∧ c ≤ '9' then some (c.toNat - '0'.toNat)
    else if 'a' ≤ c ∧ c ≤ 'f' then some (c.toNat - 'a'.toNat + 10)
    else if 'A' ≤ c ∧ c ≤ 'F' then some (c.toNat - 'A'.toNat + 10)
    else none
  v.bind (fun n => if n < base then some n else none)

/-- Digits read from the left onto `acc`. -/
def digitsFrom (base : Nat) : Nat → List Char → Option Nat
  | acc, [] => some acc
  | acc, c :: cs =>
    match digitValue base c with
    | none => none
    | some d => digitsFrom base (acc * base + d) cs

/-- A number: decimal, or hexadecimal with a 0x prefix (R53); at least one digit. -/
def parseNumber : List Char → Option Nat
  | [] => none
  | ['0', 'x'] => none
  | '0' :: 'x' :: cs => digitsFrom 16 0 cs
  | cs => digitsFrom 10 0 cs

/-- A slot operand: NONE, MARK or SPACE, or the number 0, 1 or 2 (R51). -/
def parseSlot (cs : List Char) : Option Slot :=
  if cs = ['N', 'O', 'N', 'E'] then some .none
  else if cs = ['M', 'A', 'R', 'K'] then some .mark
  else if cs = ['S', 'P', 'A', 'C', 'E'] then some .space
  else
    match parseNumber cs with
    | some 0 => some .none
    | some 1 => some .mark
    | some 2 => some .space
    | _ => none

/-- A frequency operand: 0 .. 2^26 - 1 (R52, R53). -/
def parseHz (cs : List Char) : Option (BitVec 26) :=
  match parseNumber cs with
  | some n => if n < 2 ^ 26 then some (BitVec.ofNat 26 n) else none
  | none => none

/-- White space between tokens. -/
def isBlank (c : Char) : Bool := c == ' ' || c == '\t' || c == '\r'

/-- A token without the white space around it. -/
def trimBlank (cs : List Char) : List Char := ((cs.dropWhile isBlank).reverse.dropWhile isBlank).reverse

/-- The operands of a line, separated by commas. -/
def splitCommas : List Char → List (List Char)
  | [] => [[]]
  | c :: cs =>
    if c = ',' then [] :: splitCommas cs
    else
      match splitCommas cs with
      | [] => [[c]]
      | t :: ts => (c :: t) :: ts

/-- A line's mnemonic and its operands: a comment runs from ';' to the end, the mnemonic comes first (R53). -/
def lineParts (line : List Char) : List Char × List (List Char) :=
  let code := trimBlank (line.takeWhile (· != ';'))
  let operands := trimBlank (code.dropWhile (!isBlank ·))
  (code.takeWhile (!isBlank ·), if operands = [] then [] else (splitCommas operands).map trimBlank)

/-- DESIGN CHOICE (log 13), safe. The commands of one assembler line (R50, R53): none for an empty line or a comment; `none` where the line has no form
of R53 or R50. -/
def assembleLine (line : List Char) : Option (List Instr) :=
  match lineParts line with
  | ([], []) => some []
  | (['N', 'O', 'P'], []) => some [.nop]
  | (['S', 'Y', 'N', 'T', 'H'], [k, h]) =>
    match parseSlot k, parseHz h with
    | some slot, some hz => some [.synth slot hz]
    | _, _ => none
  | (['A', 'P', 'P', 'L', 'Y'], [k]) => (parseSlot k).map (fun slot => [.apply slot])
  | (['T', 'X', 'B', 'I', 'T'], []) => some [.txbit]
  | (['S', 'A', 'M', 'P', 'L', 'E'], []) => some [.sample]
  | (['D', 'E', 'C', 'O', 'D', 'E'], []) => some [.decode]
  | (['P', 'O', 'L', 'L'], []) => some [.poll]
  | (['R', 'X', 'I', 'T', 'E', 'R'], []) => some (expandPseudo .rxiter)
  | (['S', 'E', 'T', 'U', 'P'], [m, s]) =>
    match parseHz m, parseHz s with
    | some mark, some space => some (expandPseudo (.setup mark space))
    | _, _ => none
  | (['T', 'O', 'N', 'E', '_', 'O', 'F', 'F'], []) => some (expandPseudo .toneOff)
  | _ => none

/-- The words of a program, one command a line (R53). -/
def assemble : List (List Char) → Option (List Word)
  | [] => some []
  | line :: rest =>
    match assembleLine line, assemble rest with
    | some is, some ws => some (wordsOf is ++ ws)
    | _, _ => none

end Sys2Proof.Machine
end

