-- ==== Sys2Proof/Machine/Status.lean ====
section
/-! DEFINITION. The status outputs and the output pins: what the host and the board read, with no side effect (R25, R26, R34). -/

namespace Sys2Proof.Machine

/-- A tone slot as the host reads it (R24). CMP is P_OSC_W bits wide. -/
structure SlotStatus (oscW : Nat) where
  sel : BitVec 3
  cmp : BitVec oscW
  errNum : BitVec 64
  errDen : BitVec 64
deriving DecidableEq, Repr

/-- The transmit framer's registers, present only with the unit (R28). -/
structure FramerStatus where
  txi : BitVec 16
  txb : BitVec 4
deriving DecidableEq, Repr

/-- Every register at its width in bits (R24 to R37, TONE_OUT as R122 and R145 have it), for a block of parameters `p`.
PSC is shown as its number and WIN as its bits; the framer's registers are none where the unit is absent. DEDUCED (log 10,
log 20), safe. -/
structure Status (p : Params) where
  cfgNone : SlotStatus p.oscW
  cfgMark : SlotStatus p.oscW
  cfgSpace : SlotStatus p.oscW
  oscSel : BitVec 3
  oscCmp : BitVec p.oscW
  oscCnt : BitVec p.oscW
  psc : Nat
  toneOut : BitVec 1
  framer : Option FramerStatus
  tbCnt : BitVec 32
  ovf : BitVec 1
  elapsed : BitVec 32
  sacc : BitVec 32
  win : List Bool
  wpos : BitVec p.winLog
  histLo : BitVec (p.winLog + 1)
  histHi : BitVec (p.winLog + 1)
  level : BitVec 1
  edge : BitVec 1
  pos : BitVec 4
  bt : BitVec 32
  half : BitVec 1
  shift : BitVec 8
  eventKind : BitVec 2
  eventData : BitVec 8
  halted : BitVec 1
  faultCode : BitVec 2
  faultCmd : BitVec 32
deriving DecidableEq, Repr

/-- A slot at the status outputs. -/
def slotStatus (oscW : Nat) (c : ToneConfig) : SlotStatus oscW where
  sel := BitVec.ofNat 3 c.sel
  cmp := BitVec.ofNat oscW c.cmp
  errNum := BitVec.ofNat 64 c.errNum
  errDen := BitVec.ofNat 64 c.errDen

/-- The read-only status outputs (R26). -/
def statusOf (s : State) : Status s.p where
  cfgNone := slotStatus s.p.oscW s.cfgNone
  cfgMark := slotStatus s.p.oscW s.cfgMark
  cfgSpace := slotStatus s.p.oscW s.cfgSpace
  oscSel := BitVec.ofNat 3 s.oscSel
  oscCmp := BitVec.ofNat s.p.oscW s.oscCmp
  oscCnt := BitVec.ofNat s.p.oscW s.oscCnt
  psc := s.psc
  toneOut := BitVec.ofBool s.toneOut
  framer := if s.p.txPresent then some ⟨BitVec.ofNat 16 s.txi, BitVec.ofNat 4 s.txb⟩ else none
  tbCnt := BitVec.ofNat 32 s.tbCnt
  ovf := BitVec.ofBool s.ovf
  elapsed := BitVec.ofNat 32 s.elapsed
  sacc := BitVec.ofNat 32 s.sacc
  win := s.win
  wpos := BitVec.ofNat s.p.winLog s.wpos
  histLo := BitVec.ofNat (s.p.winLog + 1) s.histLo
  histHi := BitVec.ofNat (s.p.winLog + 1) s.histHi
  level := BitVec.ofBool s.level
  edge := BitVec.ofBool s.edge
  pos := BitVec.ofNat 4 s.pos
  bt := BitVec.ofNat 32 s.bt
  half := BitVec.ofBool s.half
  shift := s.shift
  eventKind := eventCode s.eventKind
  eventData := s.eventData
  halted := BitVec.ofBool s.halted
  faultCode := faultBits s.faultCode
  faultCmd := s.faultCmd

/-- The TONE_OUT pin (R25). -/
def toneOutPin (s : State) : Bool := s.toneOut

/-- The BUSY pin, if the block has one: combinational, POS != 0 (R14, R25, R34); none where it does not exist, DEDUCED
(log 20), safe. -/
def busyPin (s : State) : Option Bool := if s.p.busyPresent then some (busyFlag s.pos) else none

end Sys2Proof.Machine
end

