-- ==== Sys2Proof/Safety.lean ====
section
/-! DEFINITION. What counts as a legal state and a safe run: the registers' legal values and the spec's invariants, the halt, and the sequencer's obligations. -/

namespace Sys2Proof.Machine

/-- A tone slot's legal values (R24), the error's fields within their 64 bits (R61). -/
abbrev SlotLegal (p : Params) (c : ToneConfig) : Prop :=
  c.sel ≤ numDividers p ∧ c.cmp ≤ p.maxCmp ∧ c.errNum < 2 ^ 64 ∧ 1 ≤ c.errDen ∧ c.errDen < 2 ^ 64

/-- The three tone slots (R24). -/
abbrev SlotsLegal (s : State) : Prop :=
  SlotLegal s.p s.cfgNone ∧ SlotLegal s.p s.cfgMark ∧ SlotLegal s.p s.cfgSpace

/-- The oscillator's legal values (R27), and OSC_CNT <= OSC_CMP (R74). -/
abbrev OscillatorLegal (s : State) : Prop :=
  s.oscSel ≤ numDividers s.p ∧ s.oscCmp ≤ s.p.maxCmp ∧ s.oscCnt ≤ s.oscCmp ∧ s.psc < pscMod s.p

/-- The transmit framer's legal values (R28); without the unit its registers are absent, held at 0. -/
abbrev FramerLegal (s : State) : Prop :=
  s.txi < msgLen s.p ∧ s.txb ≤ 9 ∧ (s.p.txPresent = false → s.txi = 0 ∧ s.txb = 0)

/-- The timebase's legal values (R29). -/
abbrev TimebaseLegal (s : State) : Prop :=
  s.tbCnt < s.p.quantumCycles ∧ (s.elapsed = 0 ∨ s.elapsed = s.p.quantumUs)

/-- The sampler's legal values (R30) and the histogram invariant (R31). -/
abbrev WindowLegal (s : State) : Prop :=
  s.sacc < s.p.samplePeriodUs ∧ s.win.length = winSize s.p ∧ s.wpos < winSize s.p
  ∧ s.histLo + s.histHi = winSize s.p ∧ s.histHi = s.win.count true

/-- The debounced level never stands against a majority of more than H (R90). -/
abbrev LevelLegal (s : State) : Prop :=
  (s.level = true → s.histLo ≤ s.histHi + hysteresis s.p)
  ∧ (s.level = false → s.histHi ≤ s.histLo + hysteresis s.p)

/-- The decoder's legal values (R32), R35 (Idle holds no partial byte), R36 (BT < P_BAUD_US), and R104 and R107: HALF tells
whether half a period has passed, and the stop cell ends at its midpoint. -/
abbrev DecoderLegal (s : State) : Prop :=
  s.pos ≤ 10 ∧ s.bt < s.p.baudUs
  ∧ (s.pos = 0 → s.bt = 0 ∧ s.half = false ∧ s.shift = 0#8)
  ∧ (s.half = false → 2 * s.bt < s.p.baudUs) ∧ (s.half = true → s.p.baudUs ≤ 2 * s.bt)
  ∧ (s.pos = 10 → s.half = false)

/-- EVENT_DATA is 0 but for a decoded byte, and an event leaves the decoder in Idle (R33, R111). -/
abbrev EventLegal (s : State) : Prop :=
  (s.eventKind ≠ .byteDecoded → s.eventData = 0#8) ∧ (s.eventKind ≠ .noEvent → s.pos = 0)

/-- The fault registers explain the halt (R37, R129): none while running; else the word recorded is one that raises the
fault recorded. -/
def faultExplained (s : State) : Bool :=
  match s.faultCode with
  | .none => !s.halted && decide (s.faultCmd = 0#32)
  | .illegalCommand =>
    s.halted &&
      (match decode s.p.txPresent s.faultCmd with
      | .ok _ => false
      | .error _ => true)
  | .configUnreachable =>
    s.halted &&
      (match decode s.p.txPresent s.faultCmd with
      | .ok (.synth _ hz) => (synthesize s.p (targetHz hz)).isNone
      | _ => false)

/-- The invariant: every register within its legal values, and R31, R35, R36, R74. States that break it are reached by no
run from reset. -/
abbrev Legal (s : State) : Prop :=
  SlotsLegal s ∧ OscillatorLegal s ∧ FramerLegal s ∧ TimebaseLegal s ∧ WindowLegal s ∧ LevelLegal s
  ∧ DecoderLegal s ∧ EventLegal s ∧ faultExplained s = true

/-- Candidate (i, d, c) for target T is accepted: d is the i-th divider, c is
`round_half_away(P_CLOCK_HZ / (2*d*T) - 1)` and 0 <= c <= P_MAX_CMP (R59, R60). Stated with the spec's rationals, not
with the integer search of Machine/Synthesizer.lean. -/
def Accepted (p : Params) (t i d c : Nat) : Prop :=
  dividerOf p i = some d
  ∧ roundHalfAway ((p.clockHz : ℚ) / (2 * (d : ℚ) * (t : ℚ)) - 1) = (c : ℤ) ∧ c ≤ p.maxCmp

/-- The error of (d, c) for target T: abs(actual_hz / T - 1) (R61). -/
def freqError (p : Params) (t d c : Nat) : ℚ := |actualHz p d c / (t : ℚ) - 1|

/-- `s` with the sampler's and the decoder's registers of `r` (R30, R32, R33). -/
def withReceiverOf (r s : State) : State :=
  { s with sacc := r.sacc, win := r.win, wpos := r.wpos, histLo := r.histLo, histHi := r.histHi, level := r.level,
           edge := r.edge, pos := r.pos, bt := r.bt, half := r.half, shift := r.shift, eventKind := r.eventKind,
           eventData := r.eventData }

/-- `s` with the tone slots, the oscillator and the transmit framer of `r` (R24, R25, R27, R28). -/
def withTransmitterOf (r s : State) : State :=
  { s with cfgNone := r.cfgNone, cfgMark := r.cfgMark, cfgSpace := r.cfgSpace, oscSel := r.oscSel, oscCmp := r.oscCmp,
           oscCnt := r.oscCnt, psc := r.psc, toneOut := r.toneOut, txi := r.txi, txb := r.txb }

/-- A tone slot's status output shows the slot: each field reads back as the slot's (R24, R26). -/
abbrev SlotShown {w : Nat} (v : SlotStatus w) (c : ToneConfig) : Prop :=
  v.sel.toNat = c.sel ∧ v.cmp.toNat = c.cmp ∧ v.errNum.toNat = c.errNum ∧ v.errDen.toNat = c.errDen

/-- A run that has reached the halt has gone wrong; the state is never a good end (R133). -/
def wentWrong (s : State) : Bool := s.halted

/-- The samples in the window, the oldest first (R30, R85). -/
def sampleHistory (s : State) : List Bool := s.win.drop s.wpos ++ s.win.take s.wpos

/-- The frame time the decoder's registers stand for: `(POS - 1) * P_BAUD_US + BT` (R113). -/
def framePhase (s : State) : Nat := (s.pos - 1) * s.p.baudUs + s.bt

/-- One DECODE with a given elapsed time and level, as the last POLL and SAMPLE would have left them (R100). -/
def decodeWith (elapsed : Nat) (level : Bool) (s : State) : Result :=
  execDecode { s with elapsed := elapsed, level := level }

/-- DECODEs with the given elapsed times, the level at summed elapsed time `t` being `line t`; the event kind and data of
every one, in order (R113, R114). `t` is the time summed so far. -/
def decodeLine (line : Nat → Bool) : Nat → List Nat → State → List (EventKind × Byte)
  | _, [], _ => []
  | t, e :: es, s =>
    match decodeWith e (line (t + e)) s with
    | .next u => (u.eventKind, u.eventData) :: decodeLine line (t + e) es u
    | _ => []

/-- SAMPLEs of the given raw levels, each one a crossing when ELAPSED = P_SAMPLE_PERIOD_US (R86, R95). -/
def sampleLine : List Bool → State → Result
  | [], s => .next s
  | b :: bs, s =>
    match execSample (driveRx s b) with
    | .next t => sampleLine bs t
    | r => r

/-- TXBITs, one after another with no other step between them (R78). -/
def sendCells : Nat → State → Result
  | 0, s => .next s
  | n + 1, s =>
    match execTxbit s with
    | .next t => sendCells n t
    | r => r

/-- `n` raw levels that alternate, the first being `b`. -/
def alternating : Nat → Bool → List Bool
  | 0, _ => []
  | n + 1, b => b :: alternating n (!b)

/-- The TONE_OUT level after `n` CLK steps, if they all complete (R70). -/
def toneAfter (n : Nat) (s : State) : Option Bool :=
  match runClks n s with
  | .next t => some t.toneOut
  | _ => none

/-- The command words among the inputs, in order. -/
def commandWords : List Input → List Word
  | [] => []
  | .cmd w :: rest => w :: commandWords rest
  | _ :: rest => commandWords rest

/-- R151: fewer than P_QUANTUM_CYCLES CLK steps between two consecutive POLLs. `since` counts them since the last POLL. -/
def loopBodyWithinQuantum (quantumCycles : Nat) : Option Nat → List Input → Bool
  | _, [] => true
  | since, .clk :: rest => loopBodyWithinQuantum quantumCycles (since.map (· + 1)) rest
  | since, .cmd w :: rest =>
    if w = encode .poll then
      (match since with
      | none => true
      | some n => decide (n < quantumCycles)) && loopBodyWithinQuantum quantumCycles (some 0) rest
    else loopBodyWithinQuantum quantumCycles since rest
  | since, _ :: rest => loopBodyWithinQuantum quantumCycles since rest

/-- R152: the receiver's commands are POLL, SAMPLE, DECODE, again and again. -/
def isRxIterations : List Word → Bool
  | [] => true
  | a :: b :: c :: rest =>
    decide (a = encode .poll ∧ b = encode .sample ∧ c = encode .decode) && isRxIterations rest
  | _ => false

/-- R148: the boot order begins with SETUP's three words. -/
def bootsWithSetup (markHz spaceHz : BitVec 26) (ws : List Word) : Bool :=
  decide (ws.take 3 = wordsOf (expandPseudo (.setup markHz spaceHz)))

/-- A word that may not stand between the first and the last TXBIT of a transmission: an APPLY, or a SYNTH to MARK or
SPACE (R154). -/
def disturbsTransmission (w : Word) : Bool :=
  match decode true w with
  | .ok (.apply _) => true
  | .ok (.synth .mark _) => true
  | .ok (.synth .space _) => true
  | _ => false

/-- R154: from its first TXBIT to its last, a transmission has the oscillator to itself. -/
def exclusiveTransmission (ws : List Word) : Bool :=
  let afterFirst := ws.dropWhile (· ≠ encode .txbit)
  let upToLast := (afterFirst.reverse.dropWhile (· ≠ encode .txbit)).reverse
  !upToLast.any disturbsTransmission

/-- R77: the number of CLK steps that lasts one cell, P_BAUD_US * P_CLOCK_HZ / 10^6, rounded by the sequencer either way. -/
def isCellSpacing (p : Params) (n : Nat) : Bool :=
  decide (n = p.baudUs * p.clockHz / 10 ^ 6 ∨ n = (p.baudUs * p.clockHz + 10 ^ 6 - 1) / 10 ^ 6)

/-- R77: consecutive TXBITs are one cell apart. `since` counts CLK steps since the last TXBIT. -/
def cellsSpaced (p : Params) : Option Nat → List Input → Bool
  | _, [] => true
  | since, .clk :: rest => cellsSpaced p (since.map (· + 1)) rest
  | since, .cmd w :: rest =>
    if w = encode .txbit then
      (match since with
      | none => true
      | some n => isCellSpacing p n) && cellsSpaced p (some 0) rest
    else cellsSpaced p since rest
  | since, _ :: rest => cellsSpaced p since rest

end Sys2Proof.Machine
end

