-- ==== Sys2Proof/Certificates/Slice0/Obligations.lean ====
section
/-! DEFINITION. The statements for the provers, each from the numbered rules of spec/. -/

open Sys2Proof
open Sys2Proof.Machine

/-! ### Encoding -/

/-- Decoding an encoded well-formed command gives it back, with every operand at every value (R48, R49, R51, R52). -/
def Obligations.DecodeOfEncodeIsTheCommand : Prop :=
  ∀ (tx : Bool) (i : Instr), i.wellFormed tx = true → decode tx (encode i) = .ok i

/-- A word that decodes is the encoding of the well-formed command it decodes to: no two words are one command. -/
def Obligations.EncodeOfDecodeIsTheWord : Prop :=
  ∀ (tx : Bool) (w : Word) (i : Instr), decode tx w = .ok i → encode i = w ∧ i.wellFormed tx = true

/-- R49: a word is legal exactly when it matches one row; the rows do not overlap, and the row is its command's. -/
def Obligations.LegalWordsAreTheOpcodeMap : Prop :=
  (∀ (tx : Bool) (w : Word), (∃ i, decode tx w = .ok i) ↔ legalWord tx w = true)
  ∧ (∀ (tx : Bool) (w : Word) (i : Instr), decode tx w = .ok i → (opcodeRow i).accepts tx w = true)
  ∧ (∀ (tx : Bool) (w : Word) (r q : OpcodeRow), r ∈ opcodeTable → q ∈ opcodeTable →
      r.accepts tx w = true → q.accepts tx w = true → r = q)

/-- R55: exactly these words are illegal, and executing one raises ILLEGAL_COMMAND. -/
def Obligations.IllegalWordsRaiseIllegalCommand : Prop :=
  (∀ (tx : Bool) (w : Word), (∃ e, decode tx w = .error e) ↔
      (7 ≤ (opField w).toNat
      ∨ ((opField w = 1#4 ∨ opField w = 2#4) ∧ slotField w = 3#2)
      ∨ (opField w = 2#4 ∧ immField w ≠ 0#26)
      ∨ ((opField w = 0#4 ∨ opField w = 3#4 ∨ opField w = 4#4 ∨ opField w = 5#4 ∨ opField w = 6#4)
          ∧ (slotField w ≠ 0#2 ∨ immField w ≠ 0#26))
      ∨ (opField w = 3#4 ∧ tx = false)))
  ∧ (∀ (s : State) (w : Word) (e : DecodeError), s.halted = false → decode s.p.txPresent w = .error e →
      runWord w s = .next { s with halted := true, faultCode := .illegalCommand, faultCmd := w })

/-- R136: TXBIT's word is the one whose legality depends on a parameter, and without the unit it faults. -/
def Obligations.TxbitLegalOnlyWithTheFramer : Prop :=
  (∀ w : Word, w ≠ 0x30000000#32 → ((∃ i, decode true w = .ok i) ↔ (∃ i, decode false w = .ok i)))
  ∧ (∃ i, decode true 0x30000000#32 = .ok i) ∧ (∃ e, decode false 0x30000000#32 = .error e)
  ∧ (∀ s : State, s.halted = false → s.p.txPresent = false →
      runWord 0x30000000#32 s
        = .next { s with halted := true, faultCode := .illegalCommand, faultCmd := 0x30000000#32 })

/-- A few words written out from R49 to R53 decode to the commands they stand for, and the pseudo-commands of R50 expand to
theirs. -/
def Obligations.WordsOfTheEncodingTable : Prop :=
  decode true 0x00000000#32 = .ok .nop
  ∧ decode true 0x140008F7#32 = .ok (.synth .mark 2295#26)
  ∧ decode true 0x28000000#32 = .ok (.apply .space)
  ∧ decode true 0x30000000#32 = .ok .txbit
  ∧ decode true 0x40000000#32 = .ok .sample
  ∧ decode true 0x50000000#32 = .ok .decode
  ∧ decode true 0x60000000#32 = .ok .poll
  ∧ wordsOf (expandPseudo .rxiter) = [0x60000000#32, 0x40000000#32, 0x50000000#32]
  ∧ wordsOf (expandPseudo .toneOff) = [0x20000000#32]
  ∧ wordsOf (expandPseudo (.setup 2295#26 2125#26)) = [0x10000000#32, 0x140008F7#32, 0x1800084D#32]

/-! ### The step, the halt and reset -/

/-- A step runs the decoded command (the input list is the model's, log 3): when the next input is a word that decodes to `i`, the step is `exec i` at the state
without that input. `step` adds nothing else around it. -/
def Obligations.StepRunsTheDecodedCommand : Prop :=
  ∀ (s : State) (w : Word) (rest : List Input) (i : Instr),
    s.inputs = .cmd w :: rest → decode s.p.txPresent w = .ok i → step s = exec i { s with inputs := rest }

/-- The other steps (R45). The model's choices: the input list, and CLK when it is empty (log 3), the field that an RX_IN
input writes (log 4), and that reset keeps the RX_IN level and the inputs to come (log 9). The steps: a CLK cycle, the RX_IN pin, reset, an illegal word, and, when the outside does nothing, CLK. -/
def Obligations.StepOfEveryOtherInput : Prop :=
  ∀ (s : State) (rest : List Input),
    (s.inputs = .clk :: rest → step s = clkStep { s with inputs := rest })
    ∧ (s.inputs = [] → step s = clkStep s)
    ∧ (∀ b, s.inputs = .rxLevel b :: rest → step s = .next { s with inputs := rest, rxIn := b })
    ∧ (s.inputs = .reset :: rest → step s = .next (State.resetWith s.par s.rxIn rest))
    ∧ (∀ w e, s.inputs = .cmd w :: rest → decode s.p.txPresent w = .error e →
        step s = illegalCommand w { s with inputs := rest })

/-- A word placed to be issued runs as the very next step, in every state (the model's input list, log 3). -/
def Obligations.PlacedWordRunsNext : Prop :=
  ∀ (s : State) (w : Word), step (s.withFetchWord 32 w.toNat) = runWord w s

/-- R133: while HALTED = 1 a legal or an illegal word changes no state, and CLK steps go on as usual. -/
def Obligations.HaltedIgnoresEveryCommand : Prop :=
  (∀ (s : State) (w : Word), s.halted = true → runWord w s = .next s)
  ∧ (∀ (s : State) (i : Instr), s.halted = true → exec i s = .next s)
  ∧ (∀ (s t : State) (c : FaultCode) (w : Word), clkStep s = .next t →
      clkStep (raiseFault c w s) = .next (raiseFault c w t))

/-- R146 and R134 (the input list is the model's, log 3): a step leaves the halt, or changes the recorded fault, only if it is reset, which clears all three. -/
def Obligations.OnlyResetLeavesTheHalt : Prop :=
  (∀ s t : State, step s = .next t → s.halted = true → s.inputs.head? ≠ some .reset →
      t.halted = true ∧ t.faultCode = s.faultCode ∧ t.faultCmd = s.faultCmd)
  ∧ (∀ (s : State) (rest : List Input), s.inputs = .reset :: rest →
      ∃ t, step s = .next t ∧ t.halted = false ∧ t.faultCode = .none ∧ t.faultCmd = 0#32)

/-- R135: at most one fault, in this order: halted, illegal, and then only SYNTH, with CONFIG_UNREACHABLE. -/
def Obligations.FaultPriority : Prop :=
  (∀ (s : State) (w : Word), s.halted = true → runWord w s = .next s)
  ∧ (∀ (s : State) (w : Word) (e : DecodeError), s.halted = false → decode s.p.txPresent w = .error e →
      runWord w s = .next (raiseFault .illegalCommand w s))
  ∧ (∀ (s t : State) (w : Word) (i : Instr), s.halted = false → decode s.p.txPresent w = .ok i →
      runWord w s = .next t → t.halted = true →
      (∃ k hz, i = .synth k hz) ∧ t = raiseFault .configUnreachable w s)

/-- R145: reset puts every register into its reset value, from any state, in one step. That reset is an entry of the input
list is the model's choice (log 3). -/
def Obligations.ResetRestoresEveryRegister : Prop :=
  ∀ (s : State) (rest : List Input), s.inputs = .reset :: rest →
    ∃ t, step s = .next t
      ∧ (∀ k, readSlot t k = ⟨0, 0, 0, 1⟩)
      ∧ t.oscSel = 0 ∧ t.oscCmp = 0 ∧ t.oscCnt = 0 ∧ t.psc = 0 ∧ t.toneOut = false
      ∧ t.txi = 0 ∧ t.txb = 0
      ∧ t.tbCnt = 0 ∧ t.ovf = false ∧ t.elapsed = 0
      ∧ t.sacc = 0 ∧ t.win = List.replicate (winSize s.p) false ∧ t.wpos = 0
      ∧ t.histLo = winSize s.p ∧ t.histHi = 0 ∧ t.level = false ∧ t.edge = false
      ∧ t.pos = 0 ∧ t.bt = 0 ∧ t.half = false ∧ t.shift = 0#8
      ∧ t.eventKind = .noEvent ∧ t.eventData = 0#8
      ∧ t.halted = false ∧ t.faultCode = .none ∧ t.faultCmd = 0#32
      ∧ (statusOf t).pos = 0#4 ∧ (s.p.busyPresent = true → busyPin t = some false)
      ∧ Legal t

/-- The power-on reset state meets the invariant, whatever the OPEN parameters and the RX_IN level are (log 2, log 4). -/
def Obligations.ResetStateIsLegal : Prop :=
  Legal State.reset ∧ ∀ (par : LegalParams) (rx : Bool) (ins : List Input), Legal (State.resetWith par rx ins)

/-- Every step of every agent keeps the invariant: the registers' legal values, R31, R35, R36, R74, and the fault registers'
consistency. -/
def Obligations.EveryStepKeepsTheInvariant : Prop :=
  ∀ s t : State, Legal s → step s = .next t → Legal t

/-- From every state that meets the invariant a step completes: no fault and no refusal of the model is reached. -/
def Obligations.EveryLegalStepCompletes : Prop :=
  ∀ s : State, Legal s → ∃ t, step s = .next t

/-- R144: no step changes the parameters, reset included. -/
def Obligations.NoStepChangesTheParameters : Prop :=
  ∀ s t : State, step s = .next t → t.par = s.par

/-! ### NOP and POLL, the timebase -/

/-- R119: NOP leaves every register unchanged, halted or not. -/
def Obligations.NopChangesNothing : Prop := ∀ s : State, exec .nop s = .next s

/-- R123: POLL turns OVF into ELAPSED and clears it, and changes nothing else. -/
def Obligations.PollTakesTheOverflow : Prop :=
  ∀ s : State, s.halted = false →
    exec .poll s = .next { s with elapsed := if s.ovf then s.p.quantumUs else 0, ovf := false }

/-- R120, R121 over n CLK steps: TB_CNT counts modulo P_QUANTUM_CYCLES, and OVF is set by any wrap and stays set. -/
def Obligations.TimebaseAfterManyCycles : Prop :=
  ∀ (s t : State) (n : Nat), s.tbCnt < s.p.quantumCycles → runClks n s = .next t →
    t.tbCnt = (s.tbCnt + n) % s.p.quantumCycles
    ∧ t.ovf = (s.ovf || decide (s.p.quantumCycles ≤ s.tbCnt + n))

/-- R121, R151: after a POLL and n CLK steps the next POLL finds at most one quantum; when n < P_QUANTUM_CYCLES it finds
every overflow there was. -/
def Obligations.PollLosesNoTimeWithinAQuantum : Prop :=
  ∀ (s t : State) (n : Nat), Legal s → s.halted = false →
    runInputs (.cmd 0x60000000#32 :: List.replicate n .clk ++ [.cmd 0x60000000#32]) s = .next t →
    t.elapsed = s.p.quantumUs * min 1 ((s.tbCnt + n) / s.p.quantumCycles)
    ∧ (n < s.p.quantumCycles → t.elapsed = s.p.quantumUs * ((s.tbCnt + n) / s.p.quantumCycles))

/-- R45: the race of POLL against an overflow has both outcomes, by the order of the two steps (the order is the model's
input list, log 3). -/
def Obligations.PollAgainstOverflowByOrder : Prop :=
  ∀ s : State, Legal s → s.halted = false → s.ovf = false → s.tbCnt = s.p.quantumCycles - 1 →
    (∃ t, runInputs [.clk, .cmd 0x60000000#32] s = .next t ∧ t.elapsed = s.p.quantumUs ∧ t.ovf = false)
    ∧ (∃ t, runInputs [.cmd 0x60000000#32, .clk] s = .next t ∧ t.elapsed = 0 ∧ t.ovf = true)

/-! ### SYNTH -/

/-- R62: SYNTH with IMM = 0 writes the disabled configuration and never faults. -/
def Obligations.SynthOfZeroDisables : Prop :=
  ∀ (s : State) (k : Slot), s.halted = false → exec (.synth k 0#26) s = .next (writeSlot s k ⟨0, 0, 0, 1⟩)

/-- R59: the integer compare value is the source's rounded rational, and none exactly when that is below range. -/
def Obligations.CompareValueIsTheRoundedRational : Prop :=
  ∀ clk d t : Nat, 1 ≤ clk → 1 ≤ d → 1 ≤ t →
    (∀ c, compareValue clk d t = some c ↔ roundHalfAway ((clk : ℚ) / (2 * (d : ℚ) * (t : ℚ)) - 1) = (c : ℤ))
    ∧ (compareValue clk d t = none ↔ roundHalfAway ((clk : ℚ) / (2 * (d : ℚ) * (t : ℚ)) - 1) ≤ -1)
    ∧ (compareValue clk d t = none ↔ (clk : ℚ) / (2 * (d : ℚ) * (t : ℚ)) ≤ 1 / 2)

/-- R61: the stored fraction is abs(actual_hz / T - 1) exactly, and both fields fit their widths. -/
def Obligations.StoredErrorIsTheFrequencyError : Prop :=
  ∀ (p : Params) (t i d : Nat) (cfg : ToneConfig), p.valid = true → 1 ≤ t → t < 2 ^ 26 → dividerOf p i = some d →
    candidate p t i d = some cfg →
    errorFraction cfg = freqError p t d cfg.cmp
    ∧ cfg.errDen = 2 * d * (cfg.cmp + 1) * t ∧ (cfg.errNum : ℤ) = |(p.clockHz : ℤ) - (cfg.errDen : ℤ)|
    ∧ cfg.errDen < 2 ^ 59 ∧ cfg.errNum < 2 ^ 64 ∧ 1 ≤ cfg.errDen

/-- R60, R64: with some candidate accepted, SYNTH writes the slot with an accepted candidate of least error, the first in
P_DIVIDERS among equals, and changes nothing else. -/
def Obligations.SynthWritesTheBestCandidate : Prop :=
  ∀ (s : State) (k : Slot) (hz : BitVec 26), s.halted = false → hz ≠ 0#26 →
    (∃ i d c, Accepted s.p hz.toNat i d c) →
    ∃ i d c num den, Accepted s.p hz.toNat i d c
      ∧ exec (.synth k hz) s = .next (writeSlot s k ⟨i, c, num, den⟩)
      ∧ den = 2 * d * (c + 1) * hz.toNat ∧ (num : ℤ) = |(s.p.clockHz : ℤ) - (den : ℤ)|
      ∧ (num : ℚ) / (den : ℚ) = freqError s.p hz.toNat d c
      ∧ (∀ j e b, Accepted s.p hz.toNat j e b → freqError s.p hz.toNat d c ≤ freqError s.p hz.toNat e b)
      ∧ (∀ j e b, Accepted s.p hz.toNat j e b → j < i → freqError s.p hz.toNat d c < freqError s.p hz.toNat e b)

/-- R63, R129, R132: with T != 0 and no candidate accepted, SYNTH raises CONFIG_UNREACHABLE and writes nothing else. That
FAULT_CMD, the word being executed, is the encoding of the command is the model's reading (log 8). -/
def Obligations.SynthUnreachableHalts : Prop :=
  ∀ (s : State) (k : Slot) (hz : BitVec 26), s.halted = false → hz ≠ 0#26 →
    (¬ ∃ i d c, Accepted s.p hz.toNat i d c) →
    exec (.synth k hz) s
      = .next { s with halted := true, faultCode := .configUnreachable, faultCmd := encode (.synth k hz) }

/-! ### APPLY and the oscillator -/

/-- R68, R69: APPLY copies SEL and CMP out of the slot and zeroes OSC_CNT, in one step, and changes nothing else. -/
def Obligations.ApplyLoadsTheOscillator : Prop :=
  ∀ (s : State) (k : Slot), s.halted = false →
    exec (.apply k) s
      = .next { s with oscSel := (readSlot s k).sel, oscCmp := (readSlot s k).cmp, oscCnt := 0 }

/-- R76: two APPLYs of one slot with no CLK step between them leave the state that one leaves. -/
def Obligations.ApplyTwiceIsApplyOnce : Prop :=
  ∀ (s t : State) (k : Slot), exec (.apply k) s = .next t → exec (.apply k) t = .next t

/-- R75: a later SYNTH changes neither OSC_SEL nor OSC_CMP; the next APPLY of the slot loads what it wrote. -/
def Obligations.RetuneTakesEffectAtApply : Prop :=
  ∀ (s t u : State) (k : Slot) (hz : BitVec 26), s.halted = false →
    exec (.synth k hz) s = .next t → t.halted = false → exec (.apply k) t = .next u →
    t.oscSel = s.oscSel ∧ t.oscCmp = s.oscCmp ∧ t.oscCnt = s.oscCnt ∧ t.psc = s.psc ∧ t.toneOut = s.toneOut
    ∧ (∃ c, synthesize s.p hz.toNat = some c ∧ readSlot t k = c ∧ u.oscSel = c.sel ∧ u.oscCmp = c.cmp)

/-- R71: while OSC_SEL = 0 any number of CLK steps leaves OSC_CNT and TONE_OUT as they were, and PSC keeps counting. -/
def Obligations.DisabledOscillatorHoldsTheLine : Prop :=
  ∀ (s : State) (n : Nat), s.oscSel = 0 → s.psc < pscMod s.p →
    ∃ t, runClks n s = .next t ∧ t.oscSel = 0 ∧ t.oscCnt = s.oscCnt ∧ t.toneOut = s.toneOut
      ∧ t.psc = (s.psc + n) % pscMod s.p

/-- R70 over n CLK steps: the oscillator has counted the prescaled ticks modulo OSC_CMP + 1, and TONE_OUT has toggled once
for each time round. -/
def Obligations.OscillatorAfterManyCycles : Prop :=
  ∀ (s : State) (d n : Nat), dividerOf s.p s.oscSel = some d → s.oscCmp ≤ s.p.maxCmp → s.oscCnt ≤ s.oscCmp →
    s.psc < pscMod s.p →
    ∃ t, runClks n s = .next t
      ∧ t.psc = (s.psc + n) % pscMod s.p
      ∧ t.oscCnt = (s.oscCnt + ((s.psc + n) / d - s.psc / d)) % (s.oscCmp + 1)
      ∧ t.toneOut = (s.toneOut
          ^^ decide ((s.oscCnt + ((s.psc + n) / d - s.psc / d)) / (s.oscCmp + 1) % 2 = 1))

/-- R72: after an APPLY the first toggle comes after k + c*d CLK steps, k in 1 .. d being fixed by PSC, and then one
comes every (c+1)*d CLK steps. -/
def Obligations.FirstToggleAfterApplyAndItsPeriod : Prop :=
  ∀ (s t : State) (slot : Slot) (d c : Nat), Legal s → s.halted = false →
    dividerOf s.p (readSlot s slot).sel = some d → (readSlot s slot).cmp = c → exec (.apply slot) s = .next t →
    ∃ k, 1 ≤ k ∧ k ≤ d ∧ k = d - s.psc % d
      ∧ (∀ n, n < k + c * d → toneAfter n t = some s.toneOut)
      ∧ (∀ m r, r < (c + 1) * d →
          toneAfter (k + c * d + m * ((c + 1) * d) + r) t = some (s.toneOut ^^ decide (m % 2 = 0)))

/-- R122, R70, R120: a CLK step writes PSC, OSC_CNT, TONE_OUT, TB_CNT and OVF from the state before it and nothing else;
the timebase's two do not depend on the oscillator. -/
def Obligations.ClkStepWritesItsFiveRegisters : Prop :=
  (∀ s : State, Legal s → ∃ t, clkStep s = .next t)
  ∧ (∀ s t : State, clkStep s = .next t →
      t = { s with psc := (s.psc + 1) % pscMod s.p, oscCnt := t.oscCnt, toneOut := t.toneOut,
                   tbCnt := if s.tbCnt = s.p.quantumCycles - 1 then 0 else s.tbCnt + 1,
                   ovf := if s.tbCnt = s.p.quantumCycles - 1 then true else s.ovf })

/-! ### TXBIT -/

/-- R78 to R82: TXBIT applies the tone of the cell at (TXI, TXB), start 0, data MSB first, stop 1, as APPLY does, and
advances; it changes nothing else. -/
def Obligations.TxbitSendsTheCurrentCell : Prop :=
  ∀ (s : State) (byte : Byte) (b : Bool), s.halted = false → s.p.txPresent = true →
    s.p.msg[s.txi]? = some byte → (frameBits byte)[s.txb]? = some b →
    exec .txbit s = .next { s with
      oscSel := (readSlot s (if b then .mark else .space)).sel
      oscCmp := (readSlot s (if b then .mark else .space)).cmp
      oscCnt := 0
      txb := if s.txb = 9 then 0 else s.txb + 1
      txi := if s.txb = 9 then (s.txi + 1) % s.p.msg.length else s.txi }

/-- R81, R83: ten TXBITs send the ten cells of MSG[TXI] in order, each as the slot's SEL and CMP, and then stand at the next
byte's start cell. -/
def Obligations.TenTxbitsSendOneFrame : Prop :=
  ∀ (s : State) (byte : Byte), s.halted = false → s.p.txPresent = true → s.txb = 0 → s.p.msg[s.txi]? = some byte →
    (∀ (j : Nat) (b : Bool), (frameBits byte)[j]? = some b →
      ∃ t, sendCells (j + 1) s = .next t ∧ t.oscSel = (readSlot s (slotOfBit b)).sel
        ∧ t.oscCmp = (readSlot s (slotOfBit b)).cmp ∧ t.oscCnt = 0)
    ∧ (∃ t, sendCells 10 s = .next t ∧ t.txb = 0 ∧ t.txi = (s.txi + 1) % s.p.msg.length)

/-! ### SAMPLE -/

/-- R92: a SAMPLE without a crossing keeps LEVEL, the window and the histogram, clears EDGE and does not read RX_IN. -/
def Obligations.SampleWithoutACrossing : Prop :=
  ∀ s : State, s.halted = false → s.sacc + s.elapsed < s.p.samplePeriodUs →
    exec .sample s = .next { s with sacc := s.sacc + s.elapsed, edge := false }

/-- R86 to R91: on a crossing SAMPLE keeps the remainder, replaces the oldest sample by RX_IN, moves the counts and WPOS,
and flips LEVEL past the hysteresis margin, EDGE telling whether it did; it changes nothing else. -/
def Obligations.SampleOnACrossing : Prop :=
  ∀ (s : State) (old : Bool) (lo hi : Nat) (new : Bool), s.halted = false → WindowLegal s →
    s.p.samplePeriodUs ≤ s.sacc + s.elapsed → s.win[s.wpos]? = some old →
    lo + bitValue (!old) = s.histLo + bitValue (!s.rxIn) → hi + bitValue old = s.histHi + bitValue s.rxIn →
    (s.level = true → (new = false ↔ lo > hi + winSize s.p / 4)) →
    (s.level = false → (new = true ↔ hi > lo + winSize s.p / 4)) →
    exec .sample s = .next { s with
      sacc := s.sacc + s.elapsed - s.p.samplePeriodUs
      win := s.win.set s.wpos s.rxIn
      wpos := (s.wpos + 1) % winSize s.p
      histLo := lo
      histHi := hi
      level := new
      edge := decide (new ≠ s.level) }

/-- R85, R88: the window is always the last P_N samples: a crossing drops the oldest and appends RX_IN. -/
def Obligations.WindowIsTheLastSamples : Prop :=
  ∀ s t : State, s.halted = false → WindowLegal s → s.p.samplePeriodUs ≤ s.sacc + s.elapsed → exec .sample s = .next t →
    sampleHistory t = (sampleHistory s).tail ++ [s.rxIn] ∧ (sampleHistory t).length = winSize s.p

/-- R31: after reset and after every command the counts add up to P_N and HIST_HI counts the 1s of WIN. -/
def Obligations.HistogramMirrorsTheWindow : Prop :=
  (∀ (par : LegalParams) (rx : Bool) (ins : List Input), (State.resetWith par rx ins).histLo
      + (State.resetWith par rx ins).histHi = winSize par.val
    ∧ (State.resetWith par rx ins).histHi = (State.resetWith par rx ins).win.count true)
  ∧ (∀ (i : Instr) (s t : State), s.win.length = winSize s.p → s.histLo + s.histHi = winSize s.p →
      s.histHi = s.win.count true → exec i s = .next t →
      t.win.length = winSize t.p ∧ t.histLo + t.histHi = winSize t.p ∧ t.histHi = t.win.count true)

/-- R94: since lo + hi = P_N, the level falls exactly when lo >= L and rises exactly when hi >= L; L is 21 for P_N = 32. -/
def Obligations.FlipThresholdInCounts : Prop :=
  (∀ (p : Params) (lo hi : Nat), p.valid = true → lo + hi = winSize p →
    (debounced true lo hi (hysteresis p) = false ↔ flipCount p ≤ lo)
    ∧ (debounced false lo hi (hysteresis p) = true ↔ flipCount p ≤ hi)
    ∧ flipCount p = (winSize p + hysteresis p) / 2 + 1)
  ∧ (∀ p : Params, winSize p = 32 → hysteresis p = 8 ∧ flipCount p = 21)

/-- R95: after P_N equal samples, a line that changes and holds flips LEVEL on exactly the L-th sample after the change,
and EDGE is 1 on that sample only. -/
def Obligations.DebounceLatencyIsTheFlipCount : Prop :=
  ∀ (s : State) (v : Bool) (n : Nat), s.halted = false → WindowLegal s → s.elapsed = s.p.samplePeriodUs →
    s.win = List.replicate (winSize s.p) v → s.level = v →
    ∃ t, sampleLine (List.replicate (n + 1) (!v)) s = .next t
      ∧ t.level = (if n + 1 < flipCount s.p then v else !v)
      ∧ t.edge = decide (n + 1 = flipCount s.p)

/-- R96: raw samples that alternate produce no edge: from a window uniform at LEVEL never, and once the window holds only
such samples every crossing sees equal counts. -/
def Obligations.AlternatingSamplesGiveNoEdge : Prop :=
  (∀ (s : State) (v b : Bool) (n : Nat), s.halted = false → WindowLegal s → s.elapsed = s.p.samplePeriodUs →
    s.win = List.replicate (winSize s.p) v → s.level = v →
    ∃ t, sampleLine (alternating (n + 1) b) s = .next t ∧ t.level = v ∧ t.edge = false)
  ∧ (∀ (s : State) (b : Bool), s.halted = false → WindowLegal s → s.elapsed = s.p.samplePeriodUs →
    sampleHistory s = alternating (winSize s.p) b →
    ∃ t, execSample (driveRx s b) = .next t ∧ t.histHi = winSize s.p / 2 ∧ t.histLo = winSize s.p / 2
      ∧ t.level = s.level ∧ t.edge = false)

/-! ### DECODE -/

/-- R102: in Idle a falling edge starts a frame with a zero timer, and any other input changes nothing; NoEvent. -/
def Obligations.IdleDecodeWaitsForAFallingEdge : Prop :=
  ∀ s : State, s.halted = false → s.pos = 0 →
    (s.edge = true → s.level = false →
      exec .decode s = .next { s with pos := 1, bt := 0, half := false, shift := 0#8,
                                      eventKind := .noEvent, eventData := 0#8 })
    ∧ ((s.edge = false ∨ s.level = true) →
      exec .decode s = .next { s with eventKind := .noEvent, eventData := 0#8 })

/-- R103, R112: in an active state before the cell's next test, DECODE only adds ELAPSED to BT, whatever EDGE and LEVEL. -/
def Obligations.ActiveDecodeBetweenTestsOnlyTimes : Prop :=
  ∀ s : State, s.halted = false → s.pos ≠ 0 →
    ((s.half = false ∧ 2 * (s.bt + s.elapsed) < s.p.baudUs) ∨ (s.half = true ∧ s.bt + s.elapsed < s.p.baudUs)) →
    exec .decode s = .next { s with bt := s.bt + s.elapsed, eventKind := .noEvent, eventData := 0#8 }

/-- R105: at the start midpoint a high level is StartBitError and back to Idle; a low one confirms the start bit. -/
def Obligations.StartMidpointChecksTheStartBit : Prop :=
  ∀ s : State, s.halted = false → Legal s → s.pos = 1 → s.half = false → s.p.baudUs ≤ 2 * (s.bt + s.elapsed) →
    (s.level = true →
      exec .decode s = .next { s with pos := 0, bt := 0, half := false, shift := 0#8,
                                      eventKind := .startBitError, eventData := 0#8 })
    ∧ (s.level = false →
      exec .decode s = .next { s with bt := s.bt + s.elapsed, half := true,
                                      eventKind := .noEvent, eventData := 0#8 })

/-- R106: at a data midpoint SHIFT <- (SHIFT * 2 + LEVEL) mod 256, and POS does not move. -/
def Obligations.DataMidpointShiftsTheLevelIn : Prop :=
  ∀ s : State, s.halted = false → Legal s → 2 ≤ s.pos → s.pos ≤ 9 → s.half = false →
    s.p.baudUs ≤ 2 * (s.bt + s.elapsed) →
    ∃ sh : Byte, sh.toNat = (s.shift.toNat * 2 + bitValue s.level) % 256
      ∧ exec .decode s = .next { s with bt := s.bt + s.elapsed, half := true, shift := sh,
                                        eventKind := .noEvent, eventData := 0#8 }

/-- R107, R110: at the stop midpoint a high level reports the byte, a low one StopBitError; either way Idle at once, with
BT, HALF and SHIFT cleared. -/
def Obligations.StopMidpointEndsTheFrame : Prop :=
  ∀ s : State, s.halted = false → s.pos = 10 → s.half = false → s.p.baudUs ≤ 2 * (s.bt + s.elapsed) →
    exec .decode s = .next { s with pos := 0, bt := 0, half := false, shift := 0#8,
                                    eventKind := if s.level then .byteDecoded else .stopBitError,
                                    eventData := if s.level then s.shift else 0#8 }

/-- R108: at the full period POS advances and the timer carries the remainder over. -/
def Obligations.FullPeriodCarriesTheRemainderOver : Prop :=
  ∀ s : State, s.halted = false → s.pos ≠ 0 → s.half = true → s.p.baudUs ≤ s.bt + s.elapsed →
    exec .decode s = .next { s with pos := s.pos + 1, bt := s.bt + s.elapsed - s.p.baudUs, half := false,
                                    eventKind := .noEvent, eventData := 0#8 }

/-- R113: while a frame is active, its time grows by exactly ELAPSED at every DECODE: no drift. -/
def Obligations.FrameTimeHasNoDrift : Prop :=
  ∀ s t : State, s.halted = false → s.pos ≠ 0 → exec .decode s = .next t → t.pos ≠ 0 →
    framePhase t = framePhase s + s.elapsed

/-- R35: after reset and after every command, Idle holds no partial byte. -/
def Obligations.IdleHoldsNoPartialByte : Prop :=
  (∀ (par : LegalParams) (rx : Bool) (ins : List Input),
    (State.resetWith par rx ins).bt = 0 ∧ (State.resetWith par rx ins).half = false
    ∧ (State.resetWith par rx ins).shift = 0#8)
  ∧ (∀ (i : Instr) (s t : State), (s.pos = 0 → s.bt = 0 ∧ s.half = false ∧ s.shift = 0#8) → exec i s = .next t →
      t.pos = 0 → t.bt = 0 ∧ t.half = false ∧ t.shift = 0#8)

/-- R36: after every DECODE, BT < P_BAUD_US; and at reset. -/
def Obligations.TimerStaysBelowTheBaudPeriod : Prop :=
  (∀ (par : LegalParams) (rx : Bool) (ins : List Input), (State.resetWith par rx ins).bt < par.val.baudUs)
  ∧ (∀ s t : State, s.bt < s.p.baudUs → TimebaseLegal s → exec .decode s = .next t → t.bt < t.p.baudUs)

/-- R114: a line that holds the cells of byte B, each for P_BAUD_US of summed ELAPSED, decodes to B at the stop midpoint,
with NoEvent at every other DECODE of the frame, however ELAPSED is spread. -/
def Obligations.FrameRoundTripDecodesTheByte : Prop :=
  ∀ (s : State) (byte : Byte) (line : Nat → Bool) (es : List Nat) (e : Nat),
    s.halted = false → s.pos = 1 → s.bt = 0 → s.half = false → s.shift = 0#8 →
    (∀ t, t < 10 * s.p.baudUs → (frameBits byte)[t / s.p.baudUs]? = some (line t)) →
    (∀ x ∈ e :: es, 2 * x ≤ s.p.baudUs) →
    2 * es.sum < 19 * s.p.baudUs → 19 * s.p.baudUs ≤ 2 * (es.sum + e) →
    decodeLine line 0 (es ++ [e]) s
      = List.replicate es.length (.noEvent, 0#8) ++ [(.byteDecoded, byte)]

/-- R115, R116: a line high at the start midpoint reports StartBitError there; a stop cell held low reports StopBitError
at the stop midpoint. -/
def Obligations.FramingErrorsAreReported : Prop :=
  (∀ (s : State) (line : Nat → Bool) (es : List Nat) (e : Nat),
    s.halted = false → s.pos = 1 → s.bt = 0 → s.half = false →
    2 * es.sum < s.p.baudUs → s.p.baudUs ≤ 2 * (es.sum + e) → line (es.sum + e) = true →
    decodeLine line 0 (es ++ [e]) s
      = List.replicate es.length (.noEvent, 0#8) ++ [(.startBitError, 0#8)])
  ∧ (∀ (s : State) (line : Nat → Bool) (es : List Nat) (e : Nat),
    s.halted = false → s.pos = 1 → s.bt = 0 → s.half = false →
    (∀ t, t < s.p.baudUs → line t = false) → (∀ t, 9 * s.p.baudUs ≤ t → t < 10 * s.p.baudUs → line t = false) →
    (∀ x ∈ e :: es, 2 * x ≤ s.p.baudUs) →
    2 * es.sum < 19 * s.p.baudUs → 19 * s.p.baudUs ≤ 2 * (es.sum + e) →
    decodeLine line 0 (es ++ [e]) s
      = List.replicate es.length (.noEvent, 0#8) ++ [(.stopBitError, 0#8)])

/-! ### Frames, writers and isolation -/

/-- R67, R68, R84: SYNTH writes only its slot, or the fault registers; APPLY only OSC_SEL, OSC_CMP and OSC_CNT; TXBIT those
and TXI and TXB, or, without the framer, the fault registers. Every other field is unchanged. -/
def Obligations.TransmitCommandsFrame : Prop :=
  (∀ (s t : State) (k : Slot) (hz : BitVec 26), exec (.synth k hz) s = .next t →
    (∀ j, j ≠ k → readSlot t j = readSlot s j)
    ∧ t = { s with cfgNone := t.cfgNone, cfgMark := t.cfgMark, cfgSpace := t.cfgSpace,
                   halted := t.halted, faultCode := t.faultCode, faultCmd := t.faultCmd }
    ∧ (t.halted = true → ∀ j, readSlot t j = readSlot s j)
    ∧ (t.halted = false → t.faultCode = s.faultCode ∧ t.faultCmd = s.faultCmd))
  ∧ (∀ (s t : State) (k : Slot), exec (.apply k) s = .next t →
    t = { s with oscSel := t.oscSel, oscCmp := t.oscCmp, oscCnt := t.oscCnt })
  ∧ (∀ s t : State, exec .txbit s = .next t → s.p.txPresent = true →
    t = { s with oscSel := t.oscSel, oscCmp := t.oscCmp, oscCnt := t.oscCnt, txi := t.txi, txb := t.txb })
  ∧ (∀ s t : State, exec .txbit s = .next t → s.p.txPresent = false →
    t = { s with halted := t.halted, faultCode := t.faultCode, faultCmd := t.faultCmd })

/-- R97, R100, R123, R119: SAMPLE writes only SACC, WIN at WPOS, WPOS, the histogram, LEVEL and EDGE; DECODE only its four
registers and the event; POLL only ELAPSED and OVF; NOP nothing. Every other field is unchanged. -/
def Obligations.ReceiveCommandsFrame : Prop :=
  (∀ s t : State, exec .sample s = .next t →
    t = { s with sacc := t.sacc, win := t.win, wpos := t.wpos, histLo := t.histLo, histHi := t.histHi,
                 level := t.level, edge := t.edge }
    ∧ (∀ j, j ≠ s.wpos → t.win[j]? = s.win[j]?))
  ∧ (∀ s t : State, exec .decode s = .next t →
    t = { s with pos := t.pos, bt := t.bt, half := t.half, shift := t.shift, eventKind := t.eventKind,
                 eventData := t.eventData })
  ∧ (∀ s t : State, exec .poll s = .next t → t = { s with elapsed := t.elapsed, ovf := t.ovf })
  ∧ (∀ s t : State, exec .nop s = .next t → t = s)

/-- R97, R24, R25, R27, R28, R29, R32, R33, R37, R137: a register changes in a step only if one of its writers acts, or
reset; OVF is set only by CLK and cleared only by POLL. Who acts next is the model's input list (log 3), and so is the
rxLevel input that alone changes the RX_IN level (log 4): the model's choices. -/
def Obligations.EveryRegisterHasItsWriter : Prop :=
  ∀ s t : State, step s = .next t → s.inputs.head? ≠ some .reset →
    ((t.sacc, t.win, t.wpos, t.histLo, t.histHi, t.level, t.edge)
        ≠ (s.sacc, s.win, s.wpos, s.histLo, s.histHi, s.level, s.edge) →
      s.inputs.head? = some (.cmd (encode .sample)))
    ∧ ((t.pos, t.bt, t.half, t.shift, t.eventKind, t.eventData)
        ≠ (s.pos, s.bt, s.half, s.shift, s.eventKind, s.eventData) →
      s.inputs.head? = some (.cmd (encode .decode)))
    ∧ (t.elapsed ≠ s.elapsed → s.inputs.head? = some (.cmd (encode .poll)))
    ∧ ((t.txi, t.txb) ≠ (s.txi, s.txb) → s.inputs.head? = some (.cmd (encode .txbit)))
    ∧ ((t.cfgNone, t.cfgMark, t.cfgSpace) ≠ (s.cfgNone, s.cfgMark, s.cfgSpace) →
      ∃ k hz, s.inputs.head? = some (.cmd (encode (.synth k hz))))
    ∧ ((t.oscSel, t.oscCmp) ≠ (s.oscSel, s.oscCmp) →
      s.inputs.head? = some (.cmd (encode .txbit)) ∨ ∃ k, s.inputs.head? = some (.cmd (encode (.apply k))))
    ∧ ((t.psc, t.toneOut, t.tbCnt) ≠ (s.psc, s.toneOut, s.tbCnt) →
      s.inputs.head? = some .clk ∨ s.inputs = [])
    ∧ (t.oscCnt ≠ s.oscCnt →
      s.inputs.head? = some (.cmd (encode .txbit)) ∨ (∃ k, s.inputs.head? = some (.cmd (encode (.apply k))))
      ∨ s.inputs.head? = some .clk ∨ s.inputs = [])
    ∧ (s.ovf = false → t.ovf = true → s.inputs.head? = some .clk ∨ s.inputs = [])
    ∧ (s.ovf = true → t.ovf = false → s.inputs.head? = some (.cmd (encode .poll)))
    ∧ (t.rxIn ≠ s.rxIn → ∃ b, s.inputs.head? = some (.rxLevel b))
    ∧ ((t.halted, t.faultCode, t.faultCmd) ≠ (s.halted, s.faultCode, s.faultCmd) →
      ∃ w, s.inputs.head? = some (.cmd w))

/-- R84 and its like: SYNTH, APPLY, TXBIT, NOP and CLK neither read nor write the sampler or the decoder. -/
def Obligations.TransmitSideIgnoresTheReceiver : Prop :=
  ∀ (r s t : State),
    (∀ i : Instr, (i = .nop ∨ i = .txbit ∨ (∃ k, i = .apply k) ∨ ∃ k hz, i = .synth k hz) → exec i s = .next t →
      exec i (withReceiverOf r s) = .next (withReceiverOf r t))
    ∧ (clkStep s = .next t → clkStep (withReceiverOf r s) = .next (withReceiverOf r t))

/-- R100, R97, R123: SAMPLE, DECODE and POLL neither read nor write the tone slots, the oscillator or the framer. -/
def Obligations.ReceiverIgnoresTheTransmitSide : Prop :=
  ∀ (r s t : State) (i : Instr), i = .sample ∨ i = .decode ∨ i = .poll → exec i s = .next t →
    exec i (withTransmitterOf r s) = .next (withTransmitterOf r t)

/-! ### Status outputs -/

/-- R26, and the widths of R24 to R37: in a legal state every status output shows its register exactly, the slots, PSC,
TONE_OUT and WIN included; a 1-bit output is 1 exactly when its register is 1; EVENT_KIND and FAULT show the codes of R33
and R37, FAULT never 3; BUSY is POS != 0 (R34). That an absent framer and an absent BUSY pin show none, and that PSC is
shown as a number and WIN as a list of bits, is the model's reading (log 10, log 20). -/
def Obligations.StatusOutputsShowEveryRegister : Prop :=
  ∀ s : State, Legal s →
    SlotShown (statusOf s).cfgNone s.cfgNone ∧ SlotShown (statusOf s).cfgMark s.cfgMark
    ∧ SlotShown (statusOf s).cfgSpace s.cfgSpace
    ∧ (statusOf s).oscSel.toNat = s.oscSel ∧ (statusOf s).oscCmp.toNat = s.oscCmp
    ∧ (statusOf s).oscCnt.toNat = s.oscCnt ∧ (statusOf s).psc = s.psc
    ∧ ((statusOf s).toneOut = 1#1 ↔ s.toneOut = true) ∧ toneOutPin s = s.toneOut
    ∧ (s.p.txPresent = true → ∃ f, (statusOf s).framer = some f ∧ f.txi.toNat = s.txi ∧ f.txb.toNat = s.txb)
    ∧ (s.p.txPresent = false → (statusOf s).framer = none)
    ∧ (statusOf s).tbCnt.toNat = s.tbCnt ∧ ((statusOf s).ovf = 1#1 ↔ s.ovf = true)
    ∧ (statusOf s).elapsed.toNat = s.elapsed ∧ (statusOf s).sacc.toNat = s.sacc
    ∧ (statusOf s).win = s.win
    ∧ (statusOf s).wpos.toNat = s.wpos ∧ (statusOf s).histLo.toNat = s.histLo ∧ (statusOf s).histHi.toNat = s.histHi
    ∧ ((statusOf s).level = 1#1 ↔ s.level = true) ∧ ((statusOf s).edge = 1#1 ↔ s.edge = true)
    ∧ (statusOf s).pos.toNat = s.pos ∧ (statusOf s).bt.toNat = s.bt
    ∧ ((statusOf s).half = 1#1 ↔ s.half = true) ∧ (statusOf s).shift = s.shift
    ∧ ((statusOf s).eventKind = 0#2 ↔ s.eventKind = .noEvent)
    ∧ ((statusOf s).eventKind = 1#2 ↔ s.eventKind = .startBitError)
    ∧ ((statusOf s).eventKind = 2#2 ↔ s.eventKind = .stopBitError)
    ∧ ((statusOf s).eventKind = 3#2 ↔ s.eventKind = .byteDecoded)
    ∧ (statusOf s).eventData = s.eventData
    ∧ ((statusOf s).halted = 1#1 ↔ s.halted = true)
    ∧ ((statusOf s).faultCode = 0#2 ↔ s.faultCode = .none)
    ∧ ((statusOf s).faultCode = 1#2 ↔ s.faultCode = .configUnreachable)
    ∧ ((statusOf s).faultCode = 2#2 ↔ s.faultCode = .illegalCommand)
    ∧ (statusOf s).faultCode ≠ 3#2 ∧ (statusOf s).faultCmd = s.faultCmd
    ∧ (s.p.busyPresent = true → busyPin s = some (decide (s.pos ≠ 0))) ∧ (s.p.busyPresent = false → busyPin s = none)
end

