-- ==== Sys2Proof/Laws/State.lean ====
section
/-! SUPPORT. One lemma per field and state update: what each named operation leaves in every register. -/

namespace Sys2Proof.Machine

/-! Fault entry (R132): what `raiseFault` leaves in each register. -/

@[simp] theorem raiseFault_par (c : FaultCode) (w : Word) (s : State) : (raiseFault c w s).par = s.par := rfl
@[simp] theorem raiseFault_cfgNone (c : FaultCode) (w : Word) (s : State) : (raiseFault c w s).cfgNone = s.cfgNone := rfl
@[simp] theorem raiseFault_cfgMark (c : FaultCode) (w : Word) (s : State) : (raiseFault c w s).cfgMark = s.cfgMark := rfl
@[simp] theorem raiseFault_cfgSpace (c : FaultCode) (w : Word) (s : State) : (raiseFault c w s).cfgSpace = s.cfgSpace := rfl
@[simp] theorem raiseFault_oscSel (c : FaultCode) (w : Word) (s : State) : (raiseFault c w s).oscSel = s.oscSel := rfl
@[simp] theorem raiseFault_oscCmp (c : FaultCode) (w : Word) (s : State) : (raiseFault c w s).oscCmp = s.oscCmp := rfl
@[simp] theorem raiseFault_oscCnt (c : FaultCode) (w : Word) (s : State) : (raiseFault c w s).oscCnt = s.oscCnt := rfl
@[simp] theorem raiseFault_psc (c : FaultCode) (w : Word) (s : State) : (raiseFault c w s).psc = s.psc := rfl
@[simp] theorem raiseFault_toneOut (c : FaultCode) (w : Word) (s : State) : (raiseFault c w s).toneOut = s.toneOut := rfl
@[simp] theorem raiseFault_txi (c : FaultCode) (w : Word) (s : State) : (raiseFault c w s).txi = s.txi := rfl
@[simp] theorem raiseFault_txb (c : FaultCode) (w : Word) (s : State) : (raiseFault c w s).txb = s.txb := rfl
@[simp] theorem raiseFault_tbCnt (c : FaultCode) (w : Word) (s : State) : (raiseFault c w s).tbCnt = s.tbCnt := rfl
@[simp] theorem raiseFault_ovf (c : FaultCode) (w : Word) (s : State) : (raiseFault c w s).ovf = s.ovf := rfl
@[simp] theorem raiseFault_elapsed (c : FaultCode) (w : Word) (s : State) : (raiseFault c w s).elapsed = s.elapsed := rfl
@[simp] theorem raiseFault_sacc (c : FaultCode) (w : Word) (s : State) : (raiseFault c w s).sacc = s.sacc := rfl
@[simp] theorem raiseFault_win (c : FaultCode) (w : Word) (s : State) : (raiseFault c w s).win = s.win := rfl
@[simp] theorem raiseFault_wpos (c : FaultCode) (w : Word) (s : State) : (raiseFault c w s).wpos = s.wpos := rfl
@[simp] theorem raiseFault_histLo (c : FaultCode) (w : Word) (s : State) : (raiseFault c w s).histLo = s.histLo := rfl
@[simp] theorem raiseFault_histHi (c : FaultCode) (w : Word) (s : State) : (raiseFault c w s).histHi = s.histHi := rfl
@[simp] theorem raiseFault_level (c : FaultCode) (w : Word) (s : State) : (raiseFault c w s).level = s.level := rfl
@[simp] theorem raiseFault_edge (c : FaultCode) (w : Word) (s : State) : (raiseFault c w s).edge = s.edge := rfl
@[simp] theorem raiseFault_pos (c : FaultCode) (w : Word) (s : State) : (raiseFault c w s).pos = s.pos := rfl
@[simp] theorem raiseFault_bt (c : FaultCode) (w : Word) (s : State) : (raiseFault c w s).bt = s.bt := rfl
@[simp] theorem raiseFault_half (c : FaultCode) (w : Word) (s : State) : (raiseFault c w s).half = s.half := rfl
@[simp] theorem raiseFault_shift (c : FaultCode) (w : Word) (s : State) : (raiseFault c w s).shift = s.shift := rfl
@[simp] theorem raiseFault_eventKind (c : FaultCode) (w : Word) (s : State) : (raiseFault c w s).eventKind = s.eventKind := rfl
@[simp] theorem raiseFault_eventData (c : FaultCode) (w : Word) (s : State) : (raiseFault c w s).eventData = s.eventData := rfl
@[simp] theorem raiseFault_halted (c : FaultCode) (w : Word) (s : State) : (raiseFault c w s).halted = true := rfl
@[simp] theorem raiseFault_faultCode (c : FaultCode) (w : Word) (s : State) : (raiseFault c w s).faultCode = c := rfl
@[simp] theorem raiseFault_faultCmd (c : FaultCode) (w : Word) (s : State) : (raiseFault c w s).faultCmd = w := rfl
@[simp] theorem raiseFault_rxIn (c : FaultCode) (w : Word) (s : State) : (raiseFault c w s).rxIn = s.rxIn := rfl
@[simp] theorem raiseFault_inputs (c : FaultCode) (w : Word) (s : State) : (raiseFault c w s).inputs = s.inputs := rfl
@[simp] theorem raiseFault_p (c : FaultCode) (w : Word) (s : State) : (raiseFault c w s).p = s.p := rfl

/-! Loading the oscillator (R68): what `loadOscillator` leaves in each register. -/

@[simp] theorem loadOscillator_par (s : State) (c : ToneConfig) : (loadOscillator s c).par = s.par := rfl
@[simp] theorem loadOscillator_cfgNone (s : State) (c : ToneConfig) : (loadOscillator s c).cfgNone = s.cfgNone := rfl
@[simp] theorem loadOscillator_cfgMark (s : State) (c : ToneConfig) : (loadOscillator s c).cfgMark = s.cfgMark := rfl
@[simp] theorem loadOscillator_cfgSpace (s : State) (c : ToneConfig) : (loadOscillator s c).cfgSpace = s.cfgSpace := rfl
@[simp] theorem loadOscillator_oscSel (s : State) (c : ToneConfig) : (loadOscillator s c).oscSel = c.sel := rfl
@[simp] theorem loadOscillator_oscCmp (s : State) (c : ToneConfig) : (loadOscillator s c).oscCmp = c.cmp := rfl
@[simp] theorem loadOscillator_oscCnt (s : State) (c : ToneConfig) : (loadOscillator s c).oscCnt = 0 := rfl
@[simp] theorem loadOscillator_psc (s : State) (c : ToneConfig) : (loadOscillator s c).psc = s.psc := rfl
@[simp] theorem loadOscillator_toneOut (s : State) (c : ToneConfig) : (loadOscillator s c).toneOut = s.toneOut := rfl
@[simp] theorem loadOscillator_txi (s : State) (c : ToneConfig) : (loadOscillator s c).txi = s.txi := rfl
@[simp] theorem loadOscillator_txb (s : State) (c : ToneConfig) : (loadOscillator s c).txb = s.txb := rfl
@[simp] theorem loadOscillator_tbCnt (s : State) (c : ToneConfig) : (loadOscillator s c).tbCnt = s.tbCnt := rfl
@[simp] theorem loadOscillator_ovf (s : State) (c : ToneConfig) : (loadOscillator s c).ovf = s.ovf := rfl
@[simp] theorem loadOscillator_elapsed (s : State) (c : ToneConfig) : (loadOscillator s c).elapsed = s.elapsed := rfl
@[simp] theorem loadOscillator_sacc (s : State) (c : ToneConfig) : (loadOscillator s c).sacc = s.sacc := rfl
@[simp] theorem loadOscillator_win (s : State) (c : ToneConfig) : (loadOscillator s c).win = s.win := rfl
@[simp] theorem loadOscillator_wpos (s : State) (c : ToneConfig) : (loadOscillator s c).wpos = s.wpos := rfl
@[simp] theorem loadOscillator_histLo (s : State) (c : ToneConfig) : (loadOscillator s c).histLo = s.histLo := rfl
@[simp] theorem loadOscillator_histHi (s : State) (c : ToneConfig) : (loadOscillator s c).histHi = s.histHi := rfl
@[simp] theorem loadOscillator_level (s : State) (c : ToneConfig) : (loadOscillator s c).level = s.level := rfl
@[simp] theorem loadOscillator_edge (s : State) (c : ToneConfig) : (loadOscillator s c).edge = s.edge := rfl
@[simp] theorem loadOscillator_pos (s : State) (c : ToneConfig) : (loadOscillator s c).pos = s.pos := rfl
@[simp] theorem loadOscillator_bt (s : State) (c : ToneConfig) : (loadOscillator s c).bt = s.bt := rfl
@[simp] theorem loadOscillator_half (s : State) (c : ToneConfig) : (loadOscillator s c).half = s.half := rfl
@[simp] theorem loadOscillator_shift (s : State) (c : ToneConfig) : (loadOscillator s c).shift = s.shift := rfl
@[simp] theorem loadOscillator_eventKind (s : State) (c : ToneConfig) : (loadOscillator s c).eventKind = s.eventKind := rfl
@[simp] theorem loadOscillator_eventData (s : State) (c : ToneConfig) : (loadOscillator s c).eventData = s.eventData := rfl
@[simp] theorem loadOscillator_halted (s : State) (c : ToneConfig) : (loadOscillator s c).halted = s.halted := rfl
@[simp] theorem loadOscillator_faultCode (s : State) (c : ToneConfig) : (loadOscillator s c).faultCode = s.faultCode := rfl
@[simp] theorem loadOscillator_faultCmd (s : State) (c : ToneConfig) : (loadOscillator s c).faultCmd = s.faultCmd := rfl
@[simp] theorem loadOscillator_rxIn (s : State) (c : ToneConfig) : (loadOscillator s c).rxIn = s.rxIn := rfl
@[simp] theorem loadOscillator_inputs (s : State) (c : ToneConfig) : (loadOscillator s c).inputs = s.inputs := rfl
@[simp] theorem loadOscillator_p (s : State) (c : ToneConfig) : (loadOscillator s c).p = s.p := rfl

/-! Reporting an event (R111): what `emitEvent` leaves in each register. -/

@[simp] theorem emitEvent_par (s : State) (k : EventKind) (d : Byte) : (emitEvent s k d).par = s.par := rfl
@[simp] theorem emitEvent_cfgNone (s : State) (k : EventKind) (d : Byte) : (emitEvent s k d).cfgNone = s.cfgNone := rfl
@[simp] theorem emitEvent_cfgMark (s : State) (k : EventKind) (d : Byte) : (emitEvent s k d).cfgMark = s.cfgMark := rfl
@[simp] theorem emitEvent_cfgSpace (s : State) (k : EventKind) (d : Byte) : (emitEvent s k d).cfgSpace = s.cfgSpace := rfl
@[simp] theorem emitEvent_oscSel (s : State) (k : EventKind) (d : Byte) : (emitEvent s k d).oscSel = s.oscSel := rfl
@[simp] theorem emitEvent_oscCmp (s : State) (k : EventKind) (d : Byte) : (emitEvent s k d).oscCmp = s.oscCmp := rfl
@[simp] theorem emitEvent_oscCnt (s : State) (k : EventKind) (d : Byte) : (emitEvent s k d).oscCnt = s.oscCnt := rfl
@[simp] theorem emitEvent_psc (s : State) (k : EventKind) (d : Byte) : (emitEvent s k d).psc = s.psc := rfl
@[simp] theorem emitEvent_toneOut (s : State) (k : EventKind) (d : Byte) : (emitEvent s k d).toneOut = s.toneOut := rfl
@[simp] theorem emitEvent_txi (s : State) (k : EventKind) (d : Byte) : (emitEvent s k d).txi = s.txi := rfl
@[simp] theorem emitEvent_txb (s : State) (k : EventKind) (d : Byte) : (emitEvent s k d).txb = s.txb := rfl
@[simp] theorem emitEvent_tbCnt (s : State) (k : EventKind) (d : Byte) : (emitEvent s k d).tbCnt = s.tbCnt := rfl
@[simp] theorem emitEvent_ovf (s : State) (k : EventKind) (d : Byte) : (emitEvent s k d).ovf = s.ovf := rfl
@[simp] theorem emitEvent_elapsed (s : State) (k : EventKind) (d : Byte) : (emitEvent s k d).elapsed = s.elapsed := rfl
@[simp] theorem emitEvent_sacc (s : State) (k : EventKind) (d : Byte) : (emitEvent s k d).sacc = s.sacc := rfl
@[simp] theorem emitEvent_win (s : State) (k : EventKind) (d : Byte) : (emitEvent s k d).win = s.win := rfl
@[simp] theorem emitEvent_wpos (s : State) (k : EventKind) (d : Byte) : (emitEvent s k d).wpos = s.wpos := rfl
@[simp] theorem emitEvent_histLo (s : State) (k : EventKind) (d : Byte) : (emitEvent s k d).histLo = s.histLo := rfl
@[simp] theorem emitEvent_histHi (s : State) (k : EventKind) (d : Byte) : (emitEvent s k d).histHi = s.histHi := rfl
@[simp] theorem emitEvent_level (s : State) (k : EventKind) (d : Byte) : (emitEvent s k d).level = s.level := rfl
@[simp] theorem emitEvent_edge (s : State) (k : EventKind) (d : Byte) : (emitEvent s k d).edge = s.edge := rfl
@[simp] theorem emitEvent_pos (s : State) (k : EventKind) (d : Byte) : (emitEvent s k d).pos = s.pos := rfl
@[simp] theorem emitEvent_bt (s : State) (k : EventKind) (d : Byte) : (emitEvent s k d).bt = s.bt := rfl
@[simp] theorem emitEvent_half (s : State) (k : EventKind) (d : Byte) : (emitEvent s k d).half = s.half := rfl
@[simp] theorem emitEvent_shift (s : State) (k : EventKind) (d : Byte) : (emitEvent s k d).shift = s.shift := rfl
@[simp] theorem emitEvent_eventKind (s : State) (k : EventKind) (d : Byte) : (emitEvent s k d).eventKind = k := rfl
@[simp] theorem emitEvent_eventData (s : State) (k : EventKind) (d : Byte) : (emitEvent s k d).eventData = d := rfl
@[simp] theorem emitEvent_halted (s : State) (k : EventKind) (d : Byte) : (emitEvent s k d).halted = s.halted := rfl
@[simp] theorem emitEvent_faultCode (s : State) (k : EventKind) (d : Byte) : (emitEvent s k d).faultCode = s.faultCode := rfl
@[simp] theorem emitEvent_faultCmd (s : State) (k : EventKind) (d : Byte) : (emitEvent s k d).faultCmd = s.faultCmd := rfl
@[simp] theorem emitEvent_rxIn (s : State) (k : EventKind) (d : Byte) : (emitEvent s k d).rxIn = s.rxIn := rfl
@[simp] theorem emitEvent_inputs (s : State) (k : EventKind) (d : Byte) : (emitEvent s k d).inputs = s.inputs := rfl
@[simp] theorem emitEvent_p (s : State) (k : EventKind) (d : Byte) : (emitEvent s k d).p = s.p := rfl

/-! The decoder's writes (R100): what `writeFrame` leaves in each register. -/

@[simp] theorem writeFrame_par (s : State) (v : FrameVars) : (writeFrame s v).par = s.par := rfl
@[simp] theorem writeFrame_cfgNone (s : State) (v : FrameVars) : (writeFrame s v).cfgNone = s.cfgNone := rfl
@[simp] theorem writeFrame_cfgMark (s : State) (v : FrameVars) : (writeFrame s v).cfgMark = s.cfgMark := rfl
@[simp] theorem writeFrame_cfgSpace (s : State) (v : FrameVars) : (writeFrame s v).cfgSpace = s.cfgSpace := rfl
@[simp] theorem writeFrame_oscSel (s : State) (v : FrameVars) : (writeFrame s v).oscSel = s.oscSel := rfl
@[simp] theorem writeFrame_oscCmp (s : State) (v : FrameVars) : (writeFrame s v).oscCmp = s.oscCmp := rfl
@[simp] theorem writeFrame_oscCnt (s : State) (v : FrameVars) : (writeFrame s v).oscCnt = s.oscCnt := rfl
@[simp] theorem writeFrame_psc (s : State) (v : FrameVars) : (writeFrame s v).psc = s.psc := rfl
@[simp] theorem writeFrame_toneOut (s : State) (v : FrameVars) : (writeFrame s v).toneOut = s.toneOut := rfl
@[simp] theorem writeFrame_txi (s : State) (v : FrameVars) : (writeFrame s v).txi = s.txi := rfl
@[simp] theorem writeFrame_txb (s : State) (v : FrameVars) : (writeFrame s v).txb = s.txb := rfl
@[simp] theorem writeFrame_tbCnt (s : State) (v : FrameVars) : (writeFrame s v).tbCnt = s.tbCnt := rfl
@[simp] theorem writeFrame_ovf (s : State) (v : FrameVars) : (writeFrame s v).ovf = s.ovf := rfl
@[simp] theorem writeFrame_elapsed (s : State) (v : FrameVars) : (writeFrame s v).elapsed = s.elapsed := rfl
@[simp] theorem writeFrame_sacc (s : State) (v : FrameVars) : (writeFrame s v).sacc = s.sacc := rfl
@[simp] theorem writeFrame_win (s : State) (v : FrameVars) : (writeFrame s v).win = s.win := rfl
@[simp] theorem writeFrame_wpos (s : State) (v : FrameVars) : (writeFrame s v).wpos = s.wpos := rfl
@[simp] theorem writeFrame_histLo (s : State) (v : FrameVars) : (writeFrame s v).histLo = s.histLo := rfl
@[simp] theorem writeFrame_histHi (s : State) (v : FrameVars) : (writeFrame s v).histHi = s.histHi := rfl
@[simp] theorem writeFrame_level (s : State) (v : FrameVars) : (writeFrame s v).level = s.level := rfl
@[simp] theorem writeFrame_edge (s : State) (v : FrameVars) : (writeFrame s v).edge = s.edge := rfl
@[simp] theorem writeFrame_pos (s : State) (v : FrameVars) : (writeFrame s v).pos = v.pos := rfl
@[simp] theorem writeFrame_bt (s : State) (v : FrameVars) : (writeFrame s v).bt = v.bt := rfl
@[simp] theorem writeFrame_half (s : State) (v : FrameVars) : (writeFrame s v).half = v.half := rfl
@[simp] theorem writeFrame_shift (s : State) (v : FrameVars) : (writeFrame s v).shift = v.shift := rfl
@[simp] theorem writeFrame_eventKind (s : State) (v : FrameVars) : (writeFrame s v).eventKind = v.kind := rfl
@[simp] theorem writeFrame_eventData (s : State) (v : FrameVars) : (writeFrame s v).eventData = v.data := rfl
@[simp] theorem writeFrame_halted (s : State) (v : FrameVars) : (writeFrame s v).halted = s.halted := rfl
@[simp] theorem writeFrame_faultCode (s : State) (v : FrameVars) : (writeFrame s v).faultCode = s.faultCode := rfl
@[simp] theorem writeFrame_faultCmd (s : State) (v : FrameVars) : (writeFrame s v).faultCmd = s.faultCmd := rfl
@[simp] theorem writeFrame_rxIn (s : State) (v : FrameVars) : (writeFrame s v).rxIn = s.rxIn := rfl
@[simp] theorem writeFrame_inputs (s : State) (v : FrameVars) : (writeFrame s v).inputs = s.inputs := rfl
@[simp] theorem writeFrame_p (s : State) (v : FrameVars) : (writeFrame s v).p = s.p := rfl

/-! Driving the pin (R89): what `driveRx` leaves in each register. -/

@[simp] theorem driveRx_par (s : State) (b : Bool) : (driveRx s b).par = s.par := rfl
@[simp] theorem driveRx_cfgNone (s : State) (b : Bool) : (driveRx s b).cfgNone = s.cfgNone := rfl
@[simp] theorem driveRx_cfgMark (s : State) (b : Bool) : (driveRx s b).cfgMark = s.cfgMark := rfl
@[simp] theorem driveRx_cfgSpace (s : State) (b : Bool) : (driveRx s b).cfgSpace = s.cfgSpace := rfl
@[simp] theorem driveRx_oscSel (s : State) (b : Bool) : (driveRx s b).oscSel = s.oscSel := rfl
@[simp] theorem driveRx_oscCmp (s : State) (b : Bool) : (driveRx s b).oscCmp = s.oscCmp := rfl
@[simp] theorem driveRx_oscCnt (s : State) (b : Bool) : (driveRx s b).oscCnt = s.oscCnt := rfl
@[simp] theorem driveRx_psc (s : State) (b : Bool) : (driveRx s b).psc = s.psc := rfl
@[simp] theorem driveRx_toneOut (s : State) (b : Bool) : (driveRx s b).toneOut = s.toneOut := rfl
@[simp] theorem driveRx_txi (s : State) (b : Bool) : (driveRx s b).txi = s.txi := rfl
@[simp] theorem driveRx_txb (s : State) (b : Bool) : (driveRx s b).txb = s.txb := rfl
@[simp] theorem driveRx_tbCnt (s : State) (b : Bool) : (driveRx s b).tbCnt = s.tbCnt := rfl
@[simp] theorem driveRx_ovf (s : State) (b : Bool) : (driveRx s b).ovf = s.ovf := rfl
@[simp] theorem driveRx_elapsed (s : State) (b : Bool) : (driveRx s b).elapsed = s.elapsed := rfl
@[simp] theorem driveRx_sacc (s : State) (b : Bool) : (driveRx s b).sacc = s.sacc := rfl
@[simp] theorem driveRx_win (s : State) (b : Bool) : (driveRx s b).win = s.win := rfl
@[simp] theorem driveRx_wpos (s : State) (b : Bool) : (driveRx s b).wpos = s.wpos := rfl
@[simp] theorem driveRx_histLo (s : State) (b : Bool) : (driveRx s b).histLo = s.histLo := rfl
@[simp] theorem driveRx_histHi (s : State) (b : Bool) : (driveRx s b).histHi = s.histHi := rfl
@[simp] theorem driveRx_level (s : State) (b : Bool) : (driveRx s b).level = s.level := rfl
@[simp] theorem driveRx_edge (s : State) (b : Bool) : (driveRx s b).edge = s.edge := rfl
@[simp] theorem driveRx_pos (s : State) (b : Bool) : (driveRx s b).pos = s.pos := rfl
@[simp] theorem driveRx_bt (s : State) (b : Bool) : (driveRx s b).bt = s.bt := rfl
@[simp] theorem driveRx_half (s : State) (b : Bool) : (driveRx s b).half = s.half := rfl
@[simp] theorem driveRx_shift (s : State) (b : Bool) : (driveRx s b).shift = s.shift := rfl
@[simp] theorem driveRx_eventKind (s : State) (b : Bool) : (driveRx s b).eventKind = s.eventKind := rfl
@[simp] theorem driveRx_eventData (s : State) (b : Bool) : (driveRx s b).eventData = s.eventData := rfl
@[simp] theorem driveRx_halted (s : State) (b : Bool) : (driveRx s b).halted = s.halted := rfl
@[simp] theorem driveRx_faultCode (s : State) (b : Bool) : (driveRx s b).faultCode = s.faultCode := rfl
@[simp] theorem driveRx_faultCmd (s : State) (b : Bool) : (driveRx s b).faultCmd = s.faultCmd := rfl
@[simp] theorem driveRx_rxIn (s : State) (b : Bool) : (driveRx s b).rxIn = b := rfl
@[simp] theorem driveRx_inputs (s : State) (b : Bool) : (driveRx s b).inputs = s.inputs := rfl
@[simp] theorem driveRx_p (s : State) (b : Bool) : (driveRx s b).p = s.p := rfl

/-! Issuing a word: what `issue` leaves in each register. -/

@[simp] theorem issue_par (s : State) (w : Word) : (issue s w).par = s.par := rfl
@[simp] theorem issue_cfgNone (s : State) (w : Word) : (issue s w).cfgNone = s.cfgNone := rfl
@[simp] theorem issue_cfgMark (s : State) (w : Word) : (issue s w).cfgMark = s.cfgMark := rfl
@[simp] theorem issue_cfgSpace (s : State) (w : Word) : (issue s w).cfgSpace = s.cfgSpace := rfl
@[simp] theorem issue_oscSel (s : State) (w : Word) : (issue s w).oscSel = s.oscSel := rfl
@[simp] theorem issue_oscCmp (s : State) (w : Word) : (issue s w).oscCmp = s.oscCmp := rfl
@[simp] theorem issue_oscCnt (s : State) (w : Word) : (issue s w).oscCnt = s.oscCnt := rfl
@[simp] theorem issue_psc (s : State) (w : Word) : (issue s w).psc = s.psc := rfl
@[simp] theorem issue_toneOut (s : State) (w : Word) : (issue s w).toneOut = s.toneOut := rfl
@[simp] theorem issue_txi (s : State) (w : Word) : (issue s w).txi = s.txi := rfl
@[simp] theorem issue_txb (s : State) (w : Word) : (issue s w).txb = s.txb := rfl
@[simp] theorem issue_tbCnt (s : State) (w : Word) : (issue s w).tbCnt = s.tbCnt := rfl
@[simp] theorem issue_ovf (s : State) (w : Word) : (issue s w).ovf = s.ovf := rfl
@[simp] theorem issue_elapsed (s : State) (w : Word) : (issue s w).elapsed = s.elapsed := rfl
@[simp] theorem issue_sacc (s : State) (w : Word) : (issue s w).sacc = s.sacc := rfl
@[simp] theorem issue_win (s : State) (w : Word) : (issue s w).win = s.win := rfl
@[simp] theorem issue_wpos (s : State) (w : Word) : (issue s w).wpos = s.wpos := rfl
@[simp] theorem issue_histLo (s : State) (w : Word) : (issue s w).histLo = s.histLo := rfl
@[simp] theorem issue_histHi (s : State) (w : Word) : (issue s w).histHi = s.histHi := rfl
@[simp] theorem issue_level (s : State) (w : Word) : (issue s w).level = s.level := rfl
@[simp] theorem issue_edge (s : State) (w : Word) : (issue s w).edge = s.edge := rfl
@[simp] theorem issue_pos (s : State) (w : Word) : (issue s w).pos = s.pos := rfl
@[simp] theorem issue_bt (s : State) (w : Word) : (issue s w).bt = s.bt := rfl
@[simp] theorem issue_half (s : State) (w : Word) : (issue s w).half = s.half := rfl
@[simp] theorem issue_shift (s : State) (w : Word) : (issue s w).shift = s.shift := rfl
@[simp] theorem issue_eventKind (s : State) (w : Word) : (issue s w).eventKind = s.eventKind := rfl
@[simp] theorem issue_eventData (s : State) (w : Word) : (issue s w).eventData = s.eventData := rfl
@[simp] theorem issue_halted (s : State) (w : Word) : (issue s w).halted = s.halted := rfl
@[simp] theorem issue_faultCode (s : State) (w : Word) : (issue s w).faultCode = s.faultCode := rfl
@[simp] theorem issue_faultCmd (s : State) (w : Word) : (issue s w).faultCmd = s.faultCmd := rfl
@[simp] theorem issue_rxIn (s : State) (w : Word) : (issue s w).rxIn = s.rxIn := rfl
@[simp] theorem issue_inputs (s : State) (w : Word) : (issue s w).inputs = .cmd w :: s.inputs := rfl
@[simp] theorem issue_p (s : State) (w : Word) : (issue s w).p = s.p := rfl

/-! The window's index (R88): what `advanceWindow` leaves in each register. -/

@[simp] theorem advanceWindow_par (s : State) : (advanceWindow s).par = s.par := rfl
@[simp] theorem advanceWindow_cfgNone (s : State) : (advanceWindow s).cfgNone = s.cfgNone := rfl
@[simp] theorem advanceWindow_cfgMark (s : State) : (advanceWindow s).cfgMark = s.cfgMark := rfl
@[simp] theorem advanceWindow_cfgSpace (s : State) : (advanceWindow s).cfgSpace = s.cfgSpace := rfl
@[simp] theorem advanceWindow_oscSel (s : State) : (advanceWindow s).oscSel = s.oscSel := rfl
@[simp] theorem advanceWindow_oscCmp (s : State) : (advanceWindow s).oscCmp = s.oscCmp := rfl
@[simp] theorem advanceWindow_oscCnt (s : State) : (advanceWindow s).oscCnt = s.oscCnt := rfl
@[simp] theorem advanceWindow_psc (s : State) : (advanceWindow s).psc = s.psc := rfl
@[simp] theorem advanceWindow_toneOut (s : State) : (advanceWindow s).toneOut = s.toneOut := rfl
@[simp] theorem advanceWindow_txi (s : State) : (advanceWindow s).txi = s.txi := rfl
@[simp] theorem advanceWindow_txb (s : State) : (advanceWindow s).txb = s.txb := rfl
@[simp] theorem advanceWindow_tbCnt (s : State) : (advanceWindow s).tbCnt = s.tbCnt := rfl
@[simp] theorem advanceWindow_ovf (s : State) : (advanceWindow s).ovf = s.ovf := rfl
@[simp] theorem advanceWindow_elapsed (s : State) : (advanceWindow s).elapsed = s.elapsed := rfl
@[simp] theorem advanceWindow_sacc (s : State) : (advanceWindow s).sacc = s.sacc := rfl
@[simp] theorem advanceWindow_win (s : State) : (advanceWindow s).win = s.win := rfl
@[simp] theorem advanceWindow_wpos (s : State) : (advanceWindow s).wpos = (s.wpos + 1) % winSize s.p := rfl
@[simp] theorem advanceWindow_histLo (s : State) : (advanceWindow s).histLo = s.histLo := rfl
@[simp] theorem advanceWindow_histHi (s : State) : (advanceWindow s).histHi = s.histHi := rfl
@[simp] theorem advanceWindow_level (s : State) : (advanceWindow s).level = s.level := rfl
@[simp] theorem advanceWindow_edge (s : State) : (advanceWindow s).edge = s.edge := rfl
@[simp] theorem advanceWindow_pos (s : State) : (advanceWindow s).pos = s.pos := rfl
@[simp] theorem advanceWindow_bt (s : State) : (advanceWindow s).bt = s.bt := rfl
@[simp] theorem advanceWindow_half (s : State) : (advanceWindow s).half = s.half := rfl
@[simp] theorem advanceWindow_shift (s : State) : (advanceWindow s).shift = s.shift := rfl
@[simp] theorem advanceWindow_eventKind (s : State) : (advanceWindow s).eventKind = s.eventKind := rfl
@[simp] theorem advanceWindow_eventData (s : State) : (advanceWindow s).eventData = s.eventData := rfl
@[simp] theorem advanceWindow_halted (s : State) : (advanceWindow s).halted = s.halted := rfl
@[simp] theorem advanceWindow_faultCode (s : State) : (advanceWindow s).faultCode = s.faultCode := rfl
@[simp] theorem advanceWindow_faultCmd (s : State) : (advanceWindow s).faultCmd = s.faultCmd := rfl
@[simp] theorem advanceWindow_rxIn (s : State) : (advanceWindow s).rxIn = s.rxIn := rfl
@[simp] theorem advanceWindow_inputs (s : State) : (advanceWindow s).inputs = s.inputs := rfl
@[simp] theorem advanceWindow_p (s : State) : (advanceWindow s).p = s.p := rfl

/-! LEVEL and EDGE (R90, R91): what `updateLevel` leaves in each register. -/

@[simp] theorem updateLevel_par (s : State) : (updateLevel s).par = s.par := rfl
@[simp] theorem updateLevel_cfgNone (s : State) : (updateLevel s).cfgNone = s.cfgNone := rfl
@[simp] theorem updateLevel_cfgMark (s : State) : (updateLevel s).cfgMark = s.cfgMark := rfl
@[simp] theorem updateLevel_cfgSpace (s : State) : (updateLevel s).cfgSpace = s.cfgSpace := rfl
@[simp] theorem updateLevel_oscSel (s : State) : (updateLevel s).oscSel = s.oscSel := rfl
@[simp] theorem updateLevel_oscCmp (s : State) : (updateLevel s).oscCmp = s.oscCmp := rfl
@[simp] theorem updateLevel_oscCnt (s : State) : (updateLevel s).oscCnt = s.oscCnt := rfl
@[simp] theorem updateLevel_psc (s : State) : (updateLevel s).psc = s.psc := rfl
@[simp] theorem updateLevel_toneOut (s : State) : (updateLevel s).toneOut = s.toneOut := rfl
@[simp] theorem updateLevel_txi (s : State) : (updateLevel s).txi = s.txi := rfl
@[simp] theorem updateLevel_txb (s : State) : (updateLevel s).txb = s.txb := rfl
@[simp] theorem updateLevel_tbCnt (s : State) : (updateLevel s).tbCnt = s.tbCnt := rfl
@[simp] theorem updateLevel_ovf (s : State) : (updateLevel s).ovf = s.ovf := rfl
@[simp] theorem updateLevel_elapsed (s : State) : (updateLevel s).elapsed = s.elapsed := rfl
@[simp] theorem updateLevel_sacc (s : State) : (updateLevel s).sacc = s.sacc := rfl
@[simp] theorem updateLevel_win (s : State) : (updateLevel s).win = s.win := rfl
@[simp] theorem updateLevel_wpos (s : State) : (updateLevel s).wpos = s.wpos := rfl
@[simp] theorem updateLevel_histLo (s : State) : (updateLevel s).histLo = s.histLo := rfl
@[simp] theorem updateLevel_histHi (s : State) : (updateLevel s).histHi = s.histHi := rfl
@[simp] theorem updateLevel_level (s : State) : (updateLevel s).level = debounced s.level s.histLo s.histHi (hysteresis s.p) := rfl
@[simp] theorem updateLevel_edge (s : State) : (updateLevel s).edge = edgeFlag s.level (debounced s.level s.histLo s.histHi (hysteresis s.p)) := rfl
@[simp] theorem updateLevel_pos (s : State) : (updateLevel s).pos = s.pos := rfl
@[simp] theorem updateLevel_bt (s : State) : (updateLevel s).bt = s.bt := rfl
@[simp] theorem updateLevel_half (s : State) : (updateLevel s).half = s.half := rfl
@[simp] theorem updateLevel_shift (s : State) : (updateLevel s).shift = s.shift := rfl
@[simp] theorem updateLevel_eventKind (s : State) : (updateLevel s).eventKind = s.eventKind := rfl
@[simp] theorem updateLevel_eventData (s : State) : (updateLevel s).eventData = s.eventData := rfl
@[simp] theorem updateLevel_halted (s : State) : (updateLevel s).halted = s.halted := rfl
@[simp] theorem updateLevel_faultCode (s : State) : (updateLevel s).faultCode = s.faultCode := rfl
@[simp] theorem updateLevel_faultCmd (s : State) : (updateLevel s).faultCmd = s.faultCmd := rfl
@[simp] theorem updateLevel_rxIn (s : State) : (updateLevel s).rxIn = s.rxIn := rfl
@[simp] theorem updateLevel_inputs (s : State) : (updateLevel s).inputs = s.inputs := rfl
@[simp] theorem updateLevel_p (s : State) : (updateLevel s).p = s.p := rfl

/-! Inserting a sample (R88): what `insertNewest` leaves in each register. -/

@[simp] theorem insertNewest_par (s : State) (b : Bool) : (insertNewest s b).par = s.par := by
  cases b <;> rfl
@[simp] theorem insertNewest_cfgNone (s : State) (b : Bool) : (insertNewest s b).cfgNone = s.cfgNone := by
  cases b <;> rfl
@[simp] theorem insertNewest_cfgMark (s : State) (b : Bool) : (insertNewest s b).cfgMark = s.cfgMark := by
  cases b <;> rfl
@[simp] theorem insertNewest_cfgSpace (s : State) (b : Bool) : (insertNewest s b).cfgSpace = s.cfgSpace := by
  cases b <;> rfl
@[simp] theorem insertNewest_oscSel (s : State) (b : Bool) : (insertNewest s b).oscSel = s.oscSel := by
  cases b <;> rfl
@[simp] theorem insertNewest_oscCmp (s : State) (b : Bool) : (insertNewest s b).oscCmp = s.oscCmp := by
  cases b <;> rfl
@[simp] theorem insertNewest_oscCnt (s : State) (b : Bool) : (insertNewest s b).oscCnt = s.oscCnt := by
  cases b <;> rfl
@[simp] theorem insertNewest_psc (s : State) (b : Bool) : (insertNewest s b).psc = s.psc := by
  cases b <;> rfl
@[simp] theorem insertNewest_toneOut (s : State) (b : Bool) : (insertNewest s b).toneOut = s.toneOut := by
  cases b <;> rfl
@[simp] theorem insertNewest_txi (s : State) (b : Bool) : (insertNewest s b).txi = s.txi := by
  cases b <;> rfl
@[simp] theorem insertNewest_txb (s : State) (b : Bool) : (insertNewest s b).txb = s.txb := by
  cases b <;> rfl
@[simp] theorem insertNewest_tbCnt (s : State) (b : Bool) : (insertNewest s b).tbCnt = s.tbCnt := by
  cases b <;> rfl
@[simp] theorem insertNewest_ovf (s : State) (b : Bool) : (insertNewest s b).ovf = s.ovf := by
  cases b <;> rfl
@[simp] theorem insertNewest_elapsed (s : State) (b : Bool) : (insertNewest s b).elapsed = s.elapsed := by
  cases b <;> rfl
@[simp] theorem insertNewest_sacc (s : State) (b : Bool) : (insertNewest s b).sacc = s.sacc := by
  cases b <;> rfl
@[simp] theorem insertNewest_win (s : State) (b : Bool) : (insertNewest s b).win = s.win.set s.wpos b := by
  cases b <;> rfl
@[simp] theorem insertNewest_wpos (s : State) (b : Bool) : (insertNewest s b).wpos = s.wpos := by
  cases b <;> rfl
@[simp] theorem insertNewest_histLo (s : State) (b : Bool) : (insertNewest s b).histLo = if b then s.histLo else s.histLo + 1 := by
  cases b <;> rfl
@[simp] theorem insertNewest_histHi (s : State) (b : Bool) : (insertNewest s b).histHi = if b then s.histHi + 1 else s.histHi := by
  cases b <;> rfl
@[simp] theorem insertNewest_level (s : State) (b : Bool) : (insertNewest s b).level = s.level := by
  cases b <;> rfl
@[simp] theorem insertNewest_edge (s : State) (b : Bool) : (insertNewest s b).edge = s.edge := by
  cases b <;> rfl
@[simp] theorem insertNewest_pos (s : State) (b : Bool) : (insertNewest s b).pos = s.pos := by
  cases b <;> rfl
@[simp] theorem insertNewest_bt (s : State) (b : Bool) : (insertNewest s b).bt = s.bt := by
  cases b <;> rfl
@[simp] theorem insertNewest_half (s : State) (b : Bool) : (insertNewest s b).half = s.half := by
  cases b <;> rfl
@[simp] theorem insertNewest_shift (s : State) (b : Bool) : (insertNewest s b).shift = s.shift := by
  cases b <;> rfl
@[simp] theorem insertNewest_eventKind (s : State) (b : Bool) : (insertNewest s b).eventKind = s.eventKind := by
  cases b <;> rfl
@[simp] theorem insertNewest_eventData (s : State) (b : Bool) : (insertNewest s b).eventData = s.eventData := by
  cases b <;> rfl
@[simp] theorem insertNewest_halted (s : State) (b : Bool) : (insertNewest s b).halted = s.halted := by
  cases b <;> rfl
@[simp] theorem insertNewest_faultCode (s : State) (b : Bool) : (insertNewest s b).faultCode = s.faultCode := by
  cases b <;> rfl
@[simp] theorem insertNewest_faultCmd (s : State) (b : Bool) : (insertNewest s b).faultCmd = s.faultCmd := by
  cases b <;> rfl
@[simp] theorem insertNewest_rxIn (s : State) (b : Bool) : (insertNewest s b).rxIn = s.rxIn := by
  cases b <;> rfl
@[simp] theorem insertNewest_inputs (s : State) (b : Bool) : (insertNewest s b).inputs = s.inputs := by
  cases b <;> rfl
@[simp] theorem insertNewest_p (s : State) (b : Bool) : (insertNewest s b).p = s.p := by
  cases b <;> rfl

/-! Writing a tone slot (R24): what `writeSlot` leaves in each register. -/

@[simp] theorem writeSlot_par (s : State) (k : Slot) (c : ToneConfig) : (writeSlot s k c).par = s.par := by
  cases k <;> rfl
@[simp] theorem writeSlot_cfgNone (s : State) (k : Slot) (c : ToneConfig) : (writeSlot s k c).cfgNone = if k = .none then c else s.cfgNone := by
  cases k <;> rfl
@[simp] theorem writeSlot_cfgMark (s : State) (k : Slot) (c : ToneConfig) : (writeSlot s k c).cfgMark = if k = .mark then c else s.cfgMark := by
  cases k <;> rfl
@[simp] theorem writeSlot_cfgSpace (s : State) (k : Slot) (c : ToneConfig) : (writeSlot s k c).cfgSpace = if k = .space then c else s.cfgSpace := by
  cases k <;> rfl
@[simp] theorem writeSlot_oscSel (s : State) (k : Slot) (c : ToneConfig) : (writeSlot s k c).oscSel = s.oscSel := by
  cases k <;> rfl
@[simp] theorem writeSlot_oscCmp (s : State) (k : Slot) (c : ToneConfig) : (writeSlot s k c).oscCmp = s.oscCmp := by
  cases k <;> rfl
@[simp] theorem writeSlot_oscCnt (s : State) (k : Slot) (c : ToneConfig) : (writeSlot s k c).oscCnt = s.oscCnt := by
  cases k <;> rfl
@[simp] theorem writeSlot_psc (s : State) (k : Slot) (c : ToneConfig) : (writeSlot s k c).psc = s.psc := by
  cases k <;> rfl
@[simp] theorem writeSlot_toneOut (s : State) (k : Slot) (c : ToneConfig) : (writeSlot s k c).toneOut = s.toneOut := by
  cases k <;> rfl
@[simp] theorem writeSlot_txi (s : State) (k : Slot) (c : ToneConfig) : (writeSlot s k c).txi = s.txi := by
  cases k <;> rfl
@[simp] theorem writeSlot_txb (s : State) (k : Slot) (c : ToneConfig) : (writeSlot s k c).txb = s.txb := by
  cases k <;> rfl
@[simp] theorem writeSlot_tbCnt (s : State) (k : Slot) (c : ToneConfig) : (writeSlot s k c).tbCnt = s.tbCnt := by
  cases k <;> rfl
@[simp] theorem writeSlot_ovf (s : State) (k : Slot) (c : ToneConfig) : (writeSlot s k c).ovf = s.ovf := by
  cases k <;> rfl
@[simp] theorem writeSlot_elapsed (s : State) (k : Slot) (c : ToneConfig) : (writeSlot s k c).elapsed = s.elapsed := by
  cases k <;> rfl
@[simp] theorem writeSlot_sacc (s : State) (k : Slot) (c : ToneConfig) : (writeSlot s k c).sacc = s.sacc := by
  cases k <;> rfl
@[simp] theorem writeSlot_win (s : State) (k : Slot) (c : ToneConfig) : (writeSlot s k c).win = s.win := by
  cases k <;> rfl
@[simp] theorem writeSlot_wpos (s : State) (k : Slot) (c : ToneConfig) : (writeSlot s k c).wpos = s.wpos := by
  cases k <;> rfl
@[simp] theorem writeSlot_histLo (s : State) (k : Slot) (c : ToneConfig) : (writeSlot s k c).histLo = s.histLo := by
  cases k <;> rfl
@[simp] theorem writeSlot_histHi (s : State) (k : Slot) (c : ToneConfig) : (writeSlot s k c).histHi = s.histHi := by
  cases k <;> rfl
@[simp] theorem writeSlot_level (s : State) (k : Slot) (c : ToneConfig) : (writeSlot s k c).level = s.level := by
  cases k <;> rfl
@[simp] theorem writeSlot_edge (s : State) (k : Slot) (c : ToneConfig) : (writeSlot s k c).edge = s.edge := by
  cases k <;> rfl
@[simp] theorem writeSlot_pos (s : State) (k : Slot) (c : ToneConfig) : (writeSlot s k c).pos = s.pos := by
  cases k <;> rfl
@[simp] theorem writeSlot_bt (s : State) (k : Slot) (c : ToneConfig) : (writeSlot s k c).bt = s.bt := by
  cases k <;> rfl
@[simp] theorem writeSlot_half (s : State) (k : Slot) (c : ToneConfig) : (writeSlot s k c).half = s.half := by
  cases k <;> rfl
@[simp] theorem writeSlot_shift (s : State) (k : Slot) (c : ToneConfig) : (writeSlot s k c).shift = s.shift := by
  cases k <;> rfl
@[simp] theorem writeSlot_eventKind (s : State) (k : Slot) (c : ToneConfig) : (writeSlot s k c).eventKind = s.eventKind := by
  cases k <;> rfl
@[simp] theorem writeSlot_eventData (s : State) (k : Slot) (c : ToneConfig) : (writeSlot s k c).eventData = s.eventData := by
  cases k <;> rfl
@[simp] theorem writeSlot_halted (s : State) (k : Slot) (c : ToneConfig) : (writeSlot s k c).halted = s.halted := by
  cases k <;> rfl
@[simp] theorem writeSlot_faultCode (s : State) (k : Slot) (c : ToneConfig) : (writeSlot s k c).faultCode = s.faultCode := by
  cases k <;> rfl
@[simp] theorem writeSlot_faultCmd (s : State) (k : Slot) (c : ToneConfig) : (writeSlot s k c).faultCmd = s.faultCmd := by
  cases k <;> rfl
@[simp] theorem writeSlot_rxIn (s : State) (k : Slot) (c : ToneConfig) : (writeSlot s k c).rxIn = s.rxIn := by
  cases k <;> rfl
@[simp] theorem writeSlot_inputs (s : State) (k : Slot) (c : ToneConfig) : (writeSlot s k c).inputs = s.inputs := by
  cases k <;> rfl
@[simp] theorem writeSlot_p (s : State) (k : Slot) (c : ToneConfig) : (writeSlot s k c).p = s.p := by
  cases k <;> rfl

/-! The next cell (R78, R81): what `advanceCell` leaves in each register. -/

@[simp] theorem advanceCell_par (s : State) : (advanceCell s).par = s.par := by
  unfold advanceCell; split <;> rfl
@[simp] theorem advanceCell_cfgNone (s : State) : (advanceCell s).cfgNone = s.cfgNone := by
  unfold advanceCell; split <;> rfl
@[simp] theorem advanceCell_cfgMark (s : State) : (advanceCell s).cfgMark = s.cfgMark := by
  unfold advanceCell; split <;> rfl
@[simp] theorem advanceCell_cfgSpace (s : State) : (advanceCell s).cfgSpace = s.cfgSpace := by
  unfold advanceCell; split <;> rfl
@[simp] theorem advanceCell_oscSel (s : State) : (advanceCell s).oscSel = s.oscSel := by
  unfold advanceCell; split <;> rfl
@[simp] theorem advanceCell_oscCmp (s : State) : (advanceCell s).oscCmp = s.oscCmp := by
  unfold advanceCell; split <;> rfl
@[simp] theorem advanceCell_oscCnt (s : State) : (advanceCell s).oscCnt = s.oscCnt := by
  unfold advanceCell; split <;> rfl
@[simp] theorem advanceCell_psc (s : State) : (advanceCell s).psc = s.psc := by
  unfold advanceCell; split <;> rfl
@[simp] theorem advanceCell_toneOut (s : State) : (advanceCell s).toneOut = s.toneOut := by
  unfold advanceCell; split <;> rfl
@[simp] theorem advanceCell_txi (s : State) : (advanceCell s).txi = if s.txb = 9 then (s.txi + 1) % msgLen s.p else s.txi := by
  unfold advanceCell; split <;> rfl
@[simp] theorem advanceCell_txb (s : State) : (advanceCell s).txb = if s.txb = 9 then 0 else s.txb + 1 := by
  unfold advanceCell; split <;> rfl
@[simp] theorem advanceCell_tbCnt (s : State) : (advanceCell s).tbCnt = s.tbCnt := by
  unfold advanceCell; split <;> rfl
@[simp] theorem advanceCell_ovf (s : State) : (advanceCell s).ovf = s.ovf := by
  unfold advanceCell; split <;> rfl
@[simp] theorem advanceCell_elapsed (s : State) : (advanceCell s).elapsed = s.elapsed := by
  unfold advanceCell; split <;> rfl
@[simp] theorem advanceCell_sacc (s : State) : (advanceCell s).sacc = s.sacc := by
  unfold advanceCell; split <;> rfl
@[simp] theorem advanceCell_win (s : State) : (advanceCell s).win = s.win := by
  unfold advanceCell; split <;> rfl
@[simp] theorem advanceCell_wpos (s : State) : (advanceCell s).wpos = s.wpos := by
  unfold advanceCell; split <;> rfl
@[simp] theorem advanceCell_histLo (s : State) : (advanceCell s).histLo = s.histLo := by
  unfold advanceCell; split <;> rfl
@[simp] theorem advanceCell_histHi (s : State) : (advanceCell s).histHi = s.histHi := by
  unfold advanceCell; split <;> rfl
@[simp] theorem advanceCell_level (s : State) : (advanceCell s).level = s.level := by
  unfold advanceCell; split <;> rfl
@[simp] theorem advanceCell_edge (s : State) : (advanceCell s).edge = s.edge := by
  unfold advanceCell; split <;> rfl
@[simp] theorem advanceCell_pos (s : State) : (advanceCell s).pos = s.pos := by
  unfold advanceCell; split <;> rfl
@[simp] theorem advanceCell_bt (s : State) : (advanceCell s).bt = s.bt := by
  unfold advanceCell; split <;> rfl
@[simp] theorem advanceCell_half (s : State) : (advanceCell s).half = s.half := by
  unfold advanceCell; split <;> rfl
@[simp] theorem advanceCell_shift (s : State) : (advanceCell s).shift = s.shift := by
  unfold advanceCell; split <;> rfl
@[simp] theorem advanceCell_eventKind (s : State) : (advanceCell s).eventKind = s.eventKind := by
  unfold advanceCell; split <;> rfl
@[simp] theorem advanceCell_eventData (s : State) : (advanceCell s).eventData = s.eventData := by
  unfold advanceCell; split <;> rfl
@[simp] theorem advanceCell_halted (s : State) : (advanceCell s).halted = s.halted := by
  unfold advanceCell; split <;> rfl
@[simp] theorem advanceCell_faultCode (s : State) : (advanceCell s).faultCode = s.faultCode := by
  unfold advanceCell; split <;> rfl
@[simp] theorem advanceCell_faultCmd (s : State) : (advanceCell s).faultCmd = s.faultCmd := by
  unfold advanceCell; split <;> rfl
@[simp] theorem advanceCell_rxIn (s : State) : (advanceCell s).rxIn = s.rxIn := by
  unfold advanceCell; split <;> rfl
@[simp] theorem advanceCell_inputs (s : State) : (advanceCell s).inputs = s.inputs := by
  unfold advanceCell; split <;> rfl
@[simp] theorem advanceCell_p (s : State) : (advanceCell s).p = s.p := by
  unfold advanceCell; split <;> rfl

/-! POLL (R123): what `polled` leaves in each register. -/

@[simp] theorem polled_par (s : State) : (polled s).par = s.par := by
  unfold polled; split <;> rfl
@[simp] theorem polled_cfgNone (s : State) : (polled s).cfgNone = s.cfgNone := by
  unfold polled; split <;> rfl
@[simp] theorem polled_cfgMark (s : State) : (polled s).cfgMark = s.cfgMark := by
  unfold polled; split <;> rfl
@[simp] theorem polled_cfgSpace (s : State) : (polled s).cfgSpace = s.cfgSpace := by
  unfold polled; split <;> rfl
@[simp] theorem polled_oscSel (s : State) : (polled s).oscSel = s.oscSel := by
  unfold polled; split <;> rfl
@[simp] theorem polled_oscCmp (s : State) : (polled s).oscCmp = s.oscCmp := by
  unfold polled; split <;> rfl
@[simp] theorem polled_oscCnt (s : State) : (polled s).oscCnt = s.oscCnt := by
  unfold polled; split <;> rfl
@[simp] theorem polled_psc (s : State) : (polled s).psc = s.psc := by
  unfold polled; split <;> rfl
@[simp] theorem polled_toneOut (s : State) : (polled s).toneOut = s.toneOut := by
  unfold polled; split <;> rfl
@[simp] theorem polled_txi (s : State) : (polled s).txi = s.txi := by
  unfold polled; split <;> rfl
@[simp] theorem polled_txb (s : State) : (polled s).txb = s.txb := by
  unfold polled; split <;> rfl
@[simp] theorem polled_tbCnt (s : State) : (polled s).tbCnt = s.tbCnt := by
  unfold polled; split <;> rfl
@[simp] theorem polled_ovf (s : State) : (polled s).ovf = false := by
  unfold polled; cases s.ovf <;> simp
@[simp] theorem polled_elapsed (s : State) : (polled s).elapsed = if s.ovf then s.p.quantumUs else 0 := by
  unfold polled; split <;> rfl
@[simp] theorem polled_sacc (s : State) : (polled s).sacc = s.sacc := by
  unfold polled; split <;> rfl
@[simp] theorem polled_win (s : State) : (polled s).win = s.win := by
  unfold polled; split <;> rfl
@[simp] theorem polled_wpos (s : State) : (polled s).wpos = s.wpos := by
  unfold polled; split <;> rfl
@[simp] theorem polled_histLo (s : State) : (polled s).histLo = s.histLo := by
  unfold polled; split <;> rfl
@[simp] theorem polled_histHi (s : State) : (polled s).histHi = s.histHi := by
  unfold polled; split <;> rfl
@[simp] theorem polled_level (s : State) : (polled s).level = s.level := by
  unfold polled; split <;> rfl
@[simp] theorem polled_edge (s : State) : (polled s).edge = s.edge := by
  unfold polled; split <;> rfl
@[simp] theorem polled_pos (s : State) : (polled s).pos = s.pos := by
  unfold polled; split <;> rfl
@[simp] theorem polled_bt (s : State) : (polled s).bt = s.bt := by
  unfold polled; split <;> rfl
@[simp] theorem polled_half (s : State) : (polled s).half = s.half := by
  unfold polled; split <;> rfl
@[simp] theorem polled_shift (s : State) : (polled s).shift = s.shift := by
  unfold polled; split <;> rfl
@[simp] theorem polled_eventKind (s : State) : (polled s).eventKind = s.eventKind := by
  unfold polled; split <;> rfl
@[simp] theorem polled_eventData (s : State) : (polled s).eventData = s.eventData := by
  unfold polled; split <;> rfl
@[simp] theorem polled_halted (s : State) : (polled s).halted = s.halted := by
  unfold polled; split <;> rfl
@[simp] theorem polled_faultCode (s : State) : (polled s).faultCode = s.faultCode := by
  unfold polled; split <;> rfl
@[simp] theorem polled_faultCmd (s : State) : (polled s).faultCmd = s.faultCmd := by
  unfold polled; split <;> rfl
@[simp] theorem polled_rxIn (s : State) : (polled s).rxIn = s.rxIn := by
  unfold polled; split <;> rfl
@[simp] theorem polled_inputs (s : State) : (polled s).inputs = s.inputs := by
  unfold polled; split <;> rfl
@[simp] theorem polled_p (s : State) : (polled s).p = s.p := by
  unfold polled; split <;> rfl

@[simp] theorem resetWith_p (par : LegalParams) (rx : Bool) (ins : List Input) :
    (State.resetWith par rx ins).p = par.val := rfl
/-! Reset (R145): every register at its reset value. -/

@[simp] theorem resetWith_par (par : LegalParams) (rx : Bool) (ins : List Input) :
    (State.resetWith par rx ins).par = par := rfl
@[simp] theorem resetWith_cfgNone (par : LegalParams) (rx : Bool) (ins : List Input) :
    (State.resetWith par rx ins).cfgNone = ToneConfig.disabled := rfl
@[simp] theorem resetWith_cfgMark (par : LegalParams) (rx : Bool) (ins : List Input) :
    (State.resetWith par rx ins).cfgMark = ToneConfig.disabled := rfl
@[simp] theorem resetWith_cfgSpace (par : LegalParams) (rx : Bool) (ins : List Input) :
    (State.resetWith par rx ins).cfgSpace = ToneConfig.disabled := rfl
@[simp] theorem resetWith_oscSel (par : LegalParams) (rx : Bool) (ins : List Input) :
    (State.resetWith par rx ins).oscSel = 0 := rfl
@[simp] theorem resetWith_oscCmp (par : LegalParams) (rx : Bool) (ins : List Input) :
    (State.resetWith par rx ins).oscCmp = 0 := rfl
@[simp] theorem resetWith_oscCnt (par : LegalParams) (rx : Bool) (ins : List Input) :
    (State.resetWith par rx ins).oscCnt = 0 := rfl
@[simp] theorem resetWith_psc (par : LegalParams) (rx : Bool) (ins : List Input) :
    (State.resetWith par rx ins).psc = 0 := rfl
@[simp] theorem resetWith_toneOut (par : LegalParams) (rx : Bool) (ins : List Input) :
    (State.resetWith par rx ins).toneOut = false := rfl
@[simp] theorem resetWith_txi (par : LegalParams) (rx : Bool) (ins : List Input) :
    (State.resetWith par rx ins).txi = 0 := rfl
@[simp] theorem resetWith_txb (par : LegalParams) (rx : Bool) (ins : List Input) :
    (State.resetWith par rx ins).txb = 0 := rfl
@[simp] theorem resetWith_tbCnt (par : LegalParams) (rx : Bool) (ins : List Input) :
    (State.resetWith par rx ins).tbCnt = 0 := rfl
@[simp] theorem resetWith_ovf (par : LegalParams) (rx : Bool) (ins : List Input) :
    (State.resetWith par rx ins).ovf = false := rfl
@[simp] theorem resetWith_elapsed (par : LegalParams) (rx : Bool) (ins : List Input) :
    (State.resetWith par rx ins).elapsed = 0 := rfl
@[simp] theorem resetWith_sacc (par : LegalParams) (rx : Bool) (ins : List Input) :
    (State.resetWith par rx ins).sacc = 0 := rfl
@[simp] theorem resetWith_win (par : LegalParams) (rx : Bool) (ins : List Input) :
    (State.resetWith par rx ins).win = List.replicate (2 ^ par.val.winLog) false := rfl
@[simp] theorem resetWith_wpos (par : LegalParams) (rx : Bool) (ins : List Input) :
    (State.resetWith par rx ins).wpos = 0 := rfl
@[simp] theorem resetWith_histLo (par : LegalParams) (rx : Bool) (ins : List Input) :
    (State.resetWith par rx ins).histLo = 2 ^ par.val.winLog := rfl
@[simp] theorem resetWith_histHi (par : LegalParams) (rx : Bool) (ins : List Input) :
    (State.resetWith par rx ins).histHi = 0 := rfl
@[simp] theorem resetWith_level (par : LegalParams) (rx : Bool) (ins : List Input) :
    (State.resetWith par rx ins).level = false := rfl
@[simp] theorem resetWith_edge (par : LegalParams) (rx : Bool) (ins : List Input) :
    (State.resetWith par rx ins).edge = false := rfl
@[simp] theorem resetWith_pos (par : LegalParams) (rx : Bool) (ins : List Input) :
    (State.resetWith par rx ins).pos = 0 := rfl
@[simp] theorem resetWith_bt (par : LegalParams) (rx : Bool) (ins : List Input) :
    (State.resetWith par rx ins).bt = 0 := rfl
@[simp] theorem resetWith_half (par : LegalParams) (rx : Bool) (ins : List Input) :
    (State.resetWith par rx ins).half = false := rfl
@[simp] theorem resetWith_shift (par : LegalParams) (rx : Bool) (ins : List Input) :
    (State.resetWith par rx ins).shift = 0#8 := rfl
@[simp] theorem resetWith_eventKind (par : LegalParams) (rx : Bool) (ins : List Input) :
    (State.resetWith par rx ins).eventKind = .noEvent := rfl
@[simp] theorem resetWith_eventData (par : LegalParams) (rx : Bool) (ins : List Input) :
    (State.resetWith par rx ins).eventData = 0#8 := rfl
@[simp] theorem resetWith_halted (par : LegalParams) (rx : Bool) (ins : List Input) :
    (State.resetWith par rx ins).halted = false := rfl
@[simp] theorem resetWith_faultCode (par : LegalParams) (rx : Bool) (ins : List Input) :
    (State.resetWith par rx ins).faultCode = .none := rfl
@[simp] theorem resetWith_faultCmd (par : LegalParams) (rx : Bool) (ins : List Input) :
    (State.resetWith par rx ins).faultCmd = 0#32 := rfl
@[simp] theorem resetWith_rxIn (par : LegalParams) (rx : Bool) (ins : List Input) :
    (State.resetWith par rx ins).rxIn = rx := rfl
@[simp] theorem resetWith_inputs (par : LegalParams) (rx : Bool) (ins : List Input) :
    (State.resetWith par rx ins).inputs = ins := rfl

end Sys2Proof.Machine
end

