-- ==== Sys2Proof/Laws/Ops.lean ====
section
/-! SUPPORT. One lemma per shared operation that says everything it can do, so that a proof cites it and does not unfold it. -/

namespace Sys2Proof.Machine

/-- The halt gate (R133). -/
theorem unlessHalted_next (s t : State) (r : Result) :
    unlessHalted s r = .next t ↔ (s.halted = true ∧ t = s) ∨ (s.halted = false ∧ r = .next t) := by
  unfold unlessHalted
  cases h : s.halted <;> simp [eq_comm]

@[simp] theorem unlessHalted_running (s : State) (r : Result) (h : s.halted = false) : unlessHalted s r = r := by
  simp [unlessHalted, h]

@[simp] theorem unlessHalted_halted (s : State) (r : Result) (h : s.halted = true) : unlessHalted s r = .next s := by
  simp [unlessHalted, h]

theorem illegalCommand_next (w : Word) (s t : State) :
    illegalCommand w s = .next t ↔
      (s.halted = true ∧ t = s) ∨ (s.halted = false ∧ t = raiseFault .illegalCommand w s) := by
  rw [illegalCommand, unlessHalted_next]
  simp only [Host.Outcome.next.injEq, @eq_comm _ t]

@[simp] theorem readSlot_writeSlot_same (s : State) (k : Slot) (c : ToneConfig) : readSlot (writeSlot s k c) k = c := by
  cases k <;> rfl

theorem readSlot_writeSlot_other (s : State) (j k : Slot) (c : ToneConfig) (h : j ≠ k) :
    readSlot (writeSlot s k c) j = readSlot s j := by
  cases j <;> cases k <;> first | rfl | exact absurd rfl h

/-- Evicting the oldest sample takes one from its bucket, and stops only at an element that does not exist (R88). -/
theorem evictOldest_ok (s t : State) :
    evictOldest s = .ok t ↔
      (s.win[s.wpos]? = some true ∧ s.histHi ≠ 0 ∧ t = { s with histHi := s.histHi - 1 })
      ∨ (s.win[s.wpos]? = some false ∧ s.histLo ≠ 0 ∧ t = { s with histLo := s.histLo - 1 }) := by
  unfold evictOldest
  rcases h : s.win[s.wpos]? with _ | b
  · simp
  · cases b
    · by_cases h0 : s.histLo = 0 <;> simp [h0, eq_comm]
    · by_cases h0 : s.histHi = 0 <;> simp [h0, eq_comm]

/-- What one sample leaves (R86 to R91): the old sample's bucket loses it, RX_IN's gains one. -/
theorem takeSample_next (s t : State) :
    takeSample s = .next t ↔
      ∃ s1, evictOldest s = .ok s1 ∧ t = updateLevel (advanceWindow (insertNewest s1 s.rxIn)) := by
  unfold takeSample
  rcases h : evictOldest s with e | s1 <;> simp [eq_comm]

/-- A SAMPLE either takes one sample or only accumulates (R87, R92). -/
theorem sampleTick_next (s t : State) :
    sampleTick s = .next t ↔
      (s.p.samplePeriodUs ≤ s.sacc + s.elapsed
        ∧ takeSample { s with sacc := s.sacc + s.elapsed - s.p.samplePeriodUs } = .next t)
      ∨ (s.sacc + s.elapsed < s.p.samplePeriodUs ∧ t = { s with sacc := s.sacc + s.elapsed, edge := false }) := by
  unfold sampleTick crosses
  by_cases h : s.p.samplePeriodUs ≤ s.sacc + s.elapsed
  · simp [h, Nat.not_lt.mpr h]
  · simp [h, Nat.lt_of_not_le h, eq_comm]

/-- The level of the current cell (R79, R80); it stops only at a cell or a byte that does not exist. -/
theorem currentCell_ok (s : State) (b : Bool) :
    currentCell s = .ok b ↔
      (s.txb = 0 ∧ b = false) ∨ (s.txb = 9 ∧ b = true)
      ∨ (1 ≤ s.txb ∧ s.txb ≤ 8 ∧ ∃ byte, s.p.msg[s.txi]? = some byte ∧ b = dataCell byte s.txb) := by
  unfold currentCell
  by_cases h0 : s.txb = 0
  · simp [h0, eq_comm]
  by_cases h9 : s.txb = 9
  · simp [h9, eq_comm]
  by_cases hgt : s.txb > 9
  · simp [h0, h9, hgt]; omega
  · have h1 : 1 ≤ s.txb := by omega
    have h8 : s.txb ≤ 8 := by omega
    rcases h : s.p.msg[s.txi]? with _ | byte <;> simp [h0, h9, hgt, h1, h8, eq_comm]

theorem sendCell_next (s t : State) :
    sendCell s = .next t ↔
      ∃ b, currentCell s = .ok b ∧ t = advanceCell (loadOscillator s (readSlot s (slotOfBit b))) := by
  unfold sendCell
  rcases h : currentCell s with e | b <;> simp [eq_comm]

/-- The oscillator in one CLK step (R70, R71): it holds, or ticks; it stops only at a divider that does not exist. -/
theorem oscClk_ok (s : State) (o : OscPair) :
    oscClk s = .ok o ↔
      (s.oscSel = 0 ∧ o = ⟨s.oscCnt, s.toneOut⟩)
      ∨ (∃ d, dividerOf s.p s.oscSel = some d ∧ pscClk s % d = 0 ∧ o = oscTick s)
      ∨ (∃ d, dividerOf s.p s.oscSel = some d ∧ pscClk s % d ≠ 0 ∧ o = ⟨s.oscCnt, s.toneOut⟩) := by
  unfold oscClk
  by_cases h0 : s.oscSel = 0
  · simp [h0, dividerOf, eq_comm]
  rcases h : dividerOf s.p s.oscSel with _ | d
  · simp [h0]
  · by_cases hd : pscClk s % d = 0 <;> simp [h0, hd, @eq_comm _ o]

/-- A CLK step writes five registers, all from the state before it (R122). -/
theorem clkStep_next (s t : State) :
    clkStep s = .next t ↔
      ∃ o, oscClk s = .ok o ∧
        t = { s with psc := pscClk s, oscCnt := o.cnt, toneOut := o.tone, tbCnt := tbCntClk s, ovf := ovfClk s } := by
  unfold clkStep
  rcases h : oscClk s with e | o <;> simp [eq_comm]

/-- A CMD step (R135): ignored while halted; ILLEGAL_COMMAND for a word that is no command; else the command. -/
theorem runWord_next (w : Word) (s t : State) :
    runWord w s = .next t ↔
      (∃ i, decode s.p.txPresent w = .ok i ∧ exec i s = .next t)
      ∨ (∃ e, decode s.p.txPresent w = .error e ∧ illegalCommand w s = .next t) := by
  unfold runWord
  rcases h : decode s.p.txPresent w with e | i <;> simp

/-- What the next input is (R45). -/
theorem step_next (s t : State) :
    step s = .next t ↔
      (s.inputs = [] ∧ clkStep s = .next t)
      ∨ (∃ rest, s.inputs = .clk :: rest ∧ clkStep { s with inputs := rest } = .next t)
      ∨ (∃ w rest, s.inputs = .cmd w :: rest ∧ runWord w { s with inputs := rest } = .next t)
      ∨ (∃ b rest, s.inputs = .rxLevel b :: rest ∧ t = driveRx { s with inputs := rest } b)
      ∨ (∃ rest, s.inputs = .reset :: rest ∧ t = State.resetWith s.par s.rxIn rest) := by
  unfold step nextInput
  rcases h : s.inputs with _ | ⟨i, rest⟩
  · simp [runInput]
  · cases i <;> simp [runInput, @eq_comm _ t] <;> rfl

/-- The SYNTH outcome (R62, R63): a slot written, or the fatal fault. -/
theorem synthesized_cases (s : State) (k : Slot) (hz : BitVec 26) :
    (∃ c, synthesize s.p (targetHz hz) = some c ∧ synthesized s k hz = writeSlot s k c)
    ∨ (synthesize s.p (targetHz hz) = none
        ∧ synthesized s k hz = raiseFault .configUnreachable (encode (.synth k hz)) s) := by
  unfold synthesized
  rcases h : synthesize s.p (targetHz hz) with _ | c
  · exact .inr ⟨rfl, rfl⟩
  · exact .inl ⟨c, rfl, rfl⟩

/-- The window array keeps its length under insertion (R39). -/
theorem insertNewest_win_length (s : State) (b : Bool) : (insertNewest s b).win.length = s.win.length := by
  simp

/-- An active DECODE goes through the midpoint test, the full-period test and the clearing, in this order (R109). -/
theorem nextFrame_active (s : State) (h : s.pos ≠ 0) :
    nextFrame s
      = clearIdle (cellFullPeriod s.p (cellMidpoint s.p s.level ⟨s.pos, s.bt + s.elapsed, s.half, s.shift, .noEvent, 0#8⟩)) := by
  simp [nextFrame, h, activeFrame]

theorem nextFrame_idle (s : State) (h : s.pos = 0) : nextFrame s = idleFrame s := by
  simp [nextFrame, h]

end Sys2Proof.Machine
end

