-- ==== Sys2Proof/Laws/Search.lean ====
section
/-! SUPPORT. What SYNTH's search does, said once: it keeps the first candidate of least error (R58, R60), and its integer arithmetic (R59, R61). -/

namespace Sys2Proof.Machine

/-- The comparison by cross-multiplication is the comparison of the error fractions (R60). -/
theorem lessError_iff (a b : ToneConfig) (ha : 1 ≤ a.errDen) (hb : 1 ≤ b.errDen) :
    lessError a b = true ↔ errorFraction a < errorFraction b := by
  have ha' : (0 : ℚ) < a.errDen := by exact_mod_cast ha
  have hb' : (0 : ℚ) < b.errDen := by exact_mod_cast hb
  rw [errorFraction, errorFraction, div_lt_div_iff₀ ha' hb']
  simp only [lessError, decide_eq_true_eq]
  exact_mod_cast Iff.rfl

/-- `r` is the first entry of least error of a list of candidates, the rejected ones being none. -/
def FirstBest (l : List (Option ToneConfig)) (r : Option ToneConfig) : Prop :=
  match r with
  | none => ∀ x ∈ l, x = none
  | some b => ∃ l1 l2, l = l1 ++ some b :: l2
      ∧ (∀ x, some x ∈ l1 → errorFraction b < errorFraction x)
      ∧ (∀ x, some x ∈ l2 → errorFraction b ≤ errorFraction x)

/-- Replacing the first two candidates by the better one keeps what the first best is. -/
theorem FirstBest_keepBest (a b : Option ToneConfig) (l : List (Option ToneConfig)) (r : Option ToneConfig)
    (hd : ∀ x, some x ∈ a :: b :: l → 1 ≤ x.errDen) (h : FirstBest (keepBest a b :: l) r) :
    FirstBest (a :: b :: l) r := by
  match a, b with
  | a, none =>
    cases r with
    | none =>
      have h' : ∀ x ∈ a :: l, x = none := h
      intro x hx
      rcases List.mem_cons.mp hx with rfl | hx
      · exact h' _ List.mem_cons_self
      rcases List.mem_cons.mp hx with rfl | hx
      · rfl
      · exact h' _ (List.mem_cons_of_mem _ hx)
    | some c =>
      obtain ⟨l1, l2, hl, h1, h2⟩ := h
      have hl : a :: l = l1 ++ some c :: l2 := hl
      cases l1 with
      | nil =>
        cases hl
        exact ⟨[], none :: l, rfl, by simp, fun x hx => h2 x (by simpa using hx)⟩
      | cons y l1 =>
        cases hl
        exact ⟨a :: none :: l1, l2, rfl, fun x hx => h1 x (by simpa using hx), h2⟩
  | none, some b =>
    cases r with
    | none =>
      have h' : ∀ x ∈ some b :: l, x = none := h
      exact absurd (h' _ List.mem_cons_self) (by simp)
    | some c =>
      obtain ⟨l1, l2, hl, h1, h2⟩ := h
      have hl : some b :: l = l1 ++ some c :: l2 := hl
      exact ⟨none :: l1, l2, by rw [hl]; rfl, fun x hx => h1 x (by simpa using hx), h2⟩
  | some a, some b =>
    have hab := lessError_iff b a (hd b (by simp)) (hd a (by simp))
    by_cases hlt : lessError b a = true
    · have hk : keepBest (some a) (some b) = some b := by simp [keepBest, hlt]
      rw [hk] at h
      have hlt' := hab.mp hlt
      cases r with
      | none => exact absurd (h (some b) (by simp)) (by simp)
      | some c =>
        obtain ⟨l1, l2, hl, h1, h2⟩ := h
        cases l1 with
        | nil =>
          cases hl
          exact ⟨[some a], l, rfl, fun x hx => by simp at hx; rw [hx]; exact hlt', h2⟩
        | cons y l1 =>
          cases hl
          refine ⟨some a :: some b :: l1, l2, rfl, fun x hx => ?_, h2⟩
          simp only [List.mem_cons, Option.some.injEq] at hx
          rcases hx with rfl | hx
          · exact lt_trans (h1 b (by simp)) hlt'
          · exact h1 x (by simpa using hx)
    · have hk : keepBest (some a) (some b) = some a := by simp [keepBest, hlt]
      rw [hk] at h
      have hle : errorFraction a ≤ errorFraction b := not_lt.mp (fun hc => hlt (hab.mpr hc))
      cases r with
      | none => exact absurd (h (some a) (by simp)) (by simp)
      | some c =>
        obtain ⟨l1, l2, hl, h1, h2⟩ := h
        cases l1 with
        | nil =>
          cases hl
          refine ⟨[], some b :: l, rfl, by simp, fun x hx => ?_⟩
          simp only [List.mem_cons, Option.some.injEq] at hx
          rcases hx with rfl | hx
          · exact hle
          · exact h2 x hx
        | cons y l1 =>
          cases hl
          refine ⟨some a :: some b :: l1, l2, rfl, fun x hx => ?_, h2⟩
          simp only [List.mem_cons, Option.some.injEq] at hx
          rcases hx with rfl | rfl | hx
          · exact h1 _ (by simp)
          · exact lt_of_lt_of_le (h1 a (by simp)) hle
          · exact h1 x (by simp [hx])

/-- The candidates of a list of dividers, numbered from `i`. -/
def candidatesFrom (p : Params) (t : Nat) : Nat → List Nat → List (Option ToneConfig)
  | _, [] => []
  | i, d :: ds => candidate p t i d :: candidatesFrom p t (i + 1) ds

theorem candidatesFrom_getElem? (p : Params) (t : Nat) (ds : List Nat) (i j : Nat) :
    (candidatesFrom p t i ds)[j]? = (ds[j]?).map (fun d => candidate p t (i + j) d) := by
  induction ds generalizing i j with
  | nil => simp [candidatesFrom]
  | cons d ds ih =>
    cases j with
    | zero => simp [candidatesFrom]
    | succ j => simp [candidatesFrom, ih, Nat.add_assoc, Nat.add_comm 1 j]

/-- The search answers the first best of what it had and the candidates still to come (R58, R60). -/
theorem searchFrom_firstBest (p : Params) (t : Nat) (ds : List Nat) (i : Nat) (best : Option ToneConfig)
    (hd : ∀ x, some x ∈ best :: candidatesFrom p t i ds → 1 ≤ x.errDen) :
    FirstBest (best :: candidatesFrom p t i ds) (searchFrom p t i best ds) := by
  induction ds generalizing i best with
  | nil =>
    cases best with
    | none => intro x hx; simpa [candidatesFrom] using hx
    | some b => exact ⟨[], [], rfl, by simp, by simp⟩
  | cons d ds ih =>
    refine FirstBest_keepBest _ _ _ _ hd (ih (i + 1) _ ?_)
    intro x hx
    rcases List.mem_cons.mp hx with hx | hx
    · refine hd x ?_
      rcases best with _ | b <;> rcases hc : candidate p t i d with _ | c <;> simp only [keepBest, hc] at hx
      · exact absurd hx (by simp)
      · simp [candidatesFrom, hc, hx]
      · simp [hx]
      · split at hx <;> simp [candidatesFrom, hc, hx]
    · exact hd x (by simp [candidatesFrom, hx])

/-- A candidate accepted is what R59 to R61 say: its fields, its range, and the arithmetic of its denominator. -/
theorem candidate_some (p : Params) (t i d : Nat) (c : ToneConfig) :
    candidate p t i d = some c ↔
      d * t < p.clockHz ∧ (p.clockHz - d * t) / (2 * d * t) ≤ p.maxCmp
      ∧ c = ⟨i, (p.clockHz - d * t) / (2 * d * t),
              candidateNum p.clockHz d ((p.clockHz - d * t) / (2 * d * t)) t,
              candidateDen d ((p.clockHz - d * t) / (2 * d * t)) t⟩ := by
  unfold candidate compareValue
  by_cases h : p.clockHz ≤ d * t
  · simp [h, Nat.not_lt.mpr h]
  · simp only [h, if_false]
    by_cases h2 : (p.clockHz - d * t) / (2 * d * t) > p.maxCmp
    · simp [h2, Nat.not_le.mpr h2]
    · simp [h2, Nat.not_lt.mp h2, Nat.lt_of_not_le h, @eq_comm _ c]

/-- The denominator of an accepted candidate is positive and below twice the clock rate. -/
theorem candidateDen_bounds (clk d t : Nat) (hd : 1 ≤ d) (ht : 1 ≤ t) (h : d * t < clk) :
    1 ≤ candidateDen d ((clk - d * t) / (2 * d * t)) t
    ∧ candidateDen d ((clk - d * t) / (2 * d * t)) t < 2 * clk := by
  have hpos : 1 ≤ d * t := Nat.mul_pos hd ht
  have h1 := Nat.div_mul_le_self (clk - d * t) (2 * d * t)
  have he : candidateDen d ((clk - d * t) / (2 * d * t)) t
      = (clk - d * t) / (2 * d * t) * (2 * d * t) + 2 * (d * t) := by
    unfold candidateDen; ring
  rw [he]
  omega

theorem candidateNum_lt (clk d t : Nat) (hd : 1 ≤ d) (ht : 1 ≤ t) (h : d * t < clk) :
    candidateNum clk d ((clk - d * t) / (2 * d * t)) t < 2 * clk := by
  have := candidateDen_bounds clk d t hd ht h
  unfold candidateNum
  omega

/-- A selector of a divider, and the list position it stands for (R7, R24). -/
theorem dividerOf_succ (p : Params) (j : Nat) : dividerOf p (j + 1) = p.dividers[j]? := rfl

theorem dividerOf_le (p : Params) (i d : Nat) (h : dividerOf p i = some d) : 1 ≤ i ∧ i ≤ numDividers p := by
  cases i with
  | zero => simp [dividerOf] at h
  | succ j =>
    have := (List.getElem?_eq_some_iff.mp h).1
    simp only [numDividers]; omega

theorem dividerOf_range (p : Params) (hv : p.valid = true) (i d : Nat) (h : dividerOf p i = some d) :
    1 ≤ d ∧ d ≤ 65536 := by
  cases i with
  | zero => simp [dividerOf] at h
  | succ j => exact ((Params.valid_iff p).mp hv).divider_range d (List.mem_of_getElem? h)

end Sys2Proof.Machine
end

