-- ==== Sys2Proof/Laws/Clock.lean ====
section
/-! SUPPORT. The prescaler and runs of steps: what the dividers say of P_PSC_MOD (R7, R70), and how runs compose (R45). -/

namespace Sys2Proof.Machine

/-- Every divider divides P_PSC_MOD, the least common multiple (R7). -/
theorem dividerOf_dvd_pscMod (p : Params) (i d : Nat) (h : dividerOf p i = some d) : d ∣ pscMod p := by
  cases i with
  | zero => simp [dividerOf] at h
  | succ j =>
    have hm : d ∈ p.dividers := List.mem_of_getElem? h
    unfold pscMod
    generalize p.dividers = l at hm
    induction l with
    | nil => simp at hm
    | cons x l ih =>
      simp only [List.foldr_cons]
      rcases List.mem_cons.mp hm with rfl | hm
      · exact Nat.dvd_lcm_left _ _
      · exact dvd_trans (ih hm) (Nat.dvd_lcm_right _ _)

/-- P_PSC_MOD is positive for legal parameters (R7). -/
theorem pscMod_pos (p : Params) (hv : p.valid = true) : 0 < pscMod p := by
  have h := ((Params.valid_iff p).mp hv).divider_range
  unfold pscMod
  generalize p.dividers = l at h
  induction l with
  | nil => simp
  | cons x l ih =>
    simp only [List.foldr_cons]
    exact Nat.lcm_pos (h x (by simp)).1 (ih (fun d hd => h d (by simp [hd])))

/-- The oscillator's part of a CLK step completes whenever OSC_SEL names a divider or is 0 (R27, R70, R71). -/
theorem oscClk_completes (s : State) (h : s.oscSel ≤ numDividers s.p) : ∃ o, oscClk s = .ok o := by
  unfold oscClk
  by_cases h0 : s.oscSel = 0
  · simp [h0]
  · obtain ⟨j, hj⟩ : ∃ j, s.oscSel = j + 1 := ⟨s.oscSel - 1, by omega⟩
    have hd : dividerOf s.p s.oscSel = some (s.p.dividers[j]'(by unfold numDividers at h; omega)) := by
      rw [hj, dividerOf_succ]
      exact List.getElem?_eq_getElem _
    simp only [h0, if_false, hd]
    split <;> exact ⟨_, rfl⟩

/-- The first of `n + 1` CLK steps, taken off. -/
theorem runClks_succ (n : Nat) (s t : State) (h : clkStep s = .next t) : runClks (n + 1) s = runClks n t := by
  simp [runClks, List.replicate_succ, runInputs, runInput, h]

/-- Two runs of inputs, one after the other (R45). -/
theorem runInputs_append (l1 l2 : List Input) (s : State) :
    runInputs (l1 ++ l2) s =
      match runInputs l1 s with
      | .next t => runInputs l2 t
      | .fault f => .fault f
      | .refused r => .refused r := by
  induction l1 generalizing s with
  | nil => rfl
  | cons i l ih => simp only [List.cons_append, runInputs]; cases runInput i s <;> simp [ih]

/-- The prescaled ticks of `n + 1` cycles: the first cycle's, and those of the `n` after it, counted from the wrapped PSC. -/
theorem ticks_succ (psc d m n : Nat) (hd : 1 ≤ d) (hdm : d ∣ m) (hpsc : psc < m) :
    (psc + (n + 1)) / d - psc / d
      = (if (psc + 1) % m % d = 0 then 1 else 0) + (((psc + 1) % m + n) / d - (psc + 1) % m / d) := by
  obtain ⟨q, hq⟩ := hdm
  have hmod : (psc + 1) % m % d = (psc + 1) % d := by rw [hq]; exact Nat.mod_mul_right_mod _ _ _
  have h2 : ((psc + 1) % m + n) / d - (psc + 1) % m / d = (psc + 1 + n) / d - (psc + 1) / d := by
    by_cases h : psc + 1 = m
    · rw [h, Nat.mod_self, Nat.zero_div, Nat.zero_add, hq, Nat.mul_add_div (by omega),
        Nat.mul_div_cancel_left _ (by omega)]
      omega
    · rw [Nat.mod_eq_of_lt (by omega)]
  rw [hmod, h2, show psc + (n + 1) = psc + 1 + n by omega]
  have h3 : (psc + 1) / d = psc / d + if (psc + 1) % d = 0 then 1 else 0 := by
    rw [Nat.succ_div]
    simp only [Nat.dvd_iff_mod_eq_zero]
  have h4 : (psc + 1) / d ≤ (psc + 1 + n) / d := Nat.div_le_div_right (by omega)
  rw [h3] at *
  omega

end Sys2Proof.Machine
end

