-- ==== Sys2Proof/Laws/Encoding.lean ====
section
/-! SUPPORT. The fields of an encoded word, and a word from its fields (R48). -/

namespace Sys2Proof

@[simp] theorem opField_encodeFields (op : BitVec 4) (k : BitVec 2) (imm : BitVec 26) :
    opField (encodeFields op k imm) = op := by
  unfold opField encodeFields
  ext i hi
  simp only [BitVec.getElem_extractLsb', BitVec.getLsbD_append]
  rw [if_neg (by omega), if_neg (by omega)]
  rw [show 28 + i - 26 - 2 = i by omega]
  exact BitVec.getLsbD_eq_getElem hi

@[simp] theorem slotField_encodeFields (op : BitVec 4) (k : BitVec 2) (imm : BitVec 26) :
    slotField (encodeFields op k imm) = k := by
  unfold slotField encodeFields
  ext i hi
  simp only [BitVec.getElem_extractLsb', BitVec.getLsbD_append]
  rw [if_neg (by omega), if_pos (by omega)]
  rw [show 26 + i - 26 = i by omega]
  exact BitVec.getLsbD_eq_getElem hi

@[simp] theorem immField_encodeFields (op : BitVec 4) (k : BitVec 2) (imm : BitVec 26) :
    immField (encodeFields op k imm) = imm := by
  unfold immField encodeFields
  ext i hi
  simp only [BitVec.getElem_extractLsb', BitVec.getLsbD_append]
  rw [if_pos (by omega)]
  rw [show 0 + i = i by omega]
  exact BitVec.getLsbD_eq_getElem hi

/-- A word is its three fields (R48): no bit lies outside them. -/
theorem encodeFields_fields (w : Word) : encodeFields (opField w) (slotField w) (immField w) = w := by
  unfold opField slotField immField encodeFields
  ext i hi
  simp only [BitVec.getElem_append, BitVec.getElem_extractLsb']
  split
  · rw [show 0 + i = i by omega]; exact BitVec.getLsbD_eq_getElem hi
  · split
    · rw [show 26 + (i - 26) = i by omega]; exact BitVec.getLsbD_eq_getElem hi
    · rw [show 28 + (i - 26 - 2) = i by omega]; exact BitVec.getLsbD_eq_getElem hi

/-- A slot's code names it back, and only 0, 1 and 2 name a slot (R51). -/
@[simp] theorem slotOfField_slotCode (k : Slot) : slotOfField (slotCode k) = some k := by
  cases k <;> rfl

theorem slotOfField_some (f : BitVec 2) (k : Slot) : slotOfField f = some k ↔ f = slotCode k := by
  revert f
  cases k <;> decide

theorem slotOfField_none (f : BitVec 2) : slotOfField f = none ↔ f = 3#2 := by
  revert f
  decide

end Sys2Proof
end

