-- ==== Sys2Proof/Laws/Frame.lean ====
section
/-! SUPPORT. What one active DECODE leaves, case by case (R103 to R110), so that a proof never unfolds the frame machine. -/

namespace Sys2Proof.Machine

/-- Between the cell's tests only the timer moves (R103). -/
theorem activeFrame_between (s : State) (hp : s.pos ≠ 0)
    (hm : s.half = true ∨ 2 * (s.bt + s.elapsed) < s.p.baudUs) (hf : s.bt + s.elapsed < s.p.baudUs) :
    activeFrame s = ⟨s.pos, s.bt + s.elapsed, s.half, s.shift, .noEvent, 0#8⟩ := by
  have hmid : atMidpoint s.p s.half (s.bt + s.elapsed) = false := by
    rcases hm with h | h <;> simp [atMidpoint, h]
  have hfull : atFullPeriod s.p s.pos (s.bt + s.elapsed) = false := by
    simp [atFullPeriod, hf]
  simp [activeFrame, cellMidpoint, hmid, cellFullPeriod, hfull, clearIdle, hp]

/-- At the full period, the midpoint handled before, POS advances and the remainder carries over (R108). -/
theorem activeFrame_full (s : State) (hp : s.pos ≠ 0)
    (hm : s.half = true ∨ 2 * (s.bt + s.elapsed) < s.p.baudUs) (hf : s.p.baudUs ≤ s.bt + s.elapsed) :
    activeFrame s = ⟨s.pos + 1, s.bt + s.elapsed - s.p.baudUs, false, s.shift, .noEvent, 0#8⟩ := by
  have hmid : atMidpoint s.p s.half (s.bt + s.elapsed) = false := by
    rcases hm with h | h <;> simp [atMidpoint, h]
  have hfull : atFullPeriod s.p s.pos (s.bt + s.elapsed) = true := by
    simp [atFullPeriod, hf, hp]
  simp [activeFrame, cellMidpoint, hmid, cellFullPeriod, hfull, clearIdle]

/-- The start midpoint with a high level: StartBitError, and Idle (R105, R110). -/
theorem activeFrame_startError (s : State) (hp : s.pos = 1) (hh : s.half = false)
    (hm : s.p.baudUs ≤ 2 * (s.bt + s.elapsed)) (hl : s.level = true) :
    activeFrame s = ⟨0, 0, false, 0#8, .startBitError, 0#8⟩ := by
  have hmid : atMidpoint s.p s.half (s.bt + s.elapsed) = true := by simp [atMidpoint, hh, hm]
  simp [activeFrame, cellMidpoint, hmid, hp, startMidpoint, hl, cellFullPeriod, atFullPeriod, clearIdle]

/-- A start or data midpoint that keeps the frame going, before the full period: the cell's bit is handled
(R105, R106). -/
theorem activeFrame_start (s : State) (hp : s.pos = 1) (hh : s.half = false)
    (hm : s.p.baudUs ≤ 2 * (s.bt + s.elapsed)) (hf : s.bt + s.elapsed < s.p.baudUs) (hl : s.level = false) :
    activeFrame s = ⟨1, s.bt + s.elapsed, true, s.shift, .noEvent, 0#8⟩ := by
  have hmid : atMidpoint s.p s.half (s.bt + s.elapsed) = true := by simp [atMidpoint, hh, hm]
  have hfull : atFullPeriod s.p 1 (s.bt + s.elapsed) = false := by simp [atFullPeriod, hf]
  simp [activeFrame, cellMidpoint, hmid, hp, startMidpoint, hl, cellFullPeriod, hfull, clearIdle]

theorem activeFrame_data (s : State) (h2 : 2 ≤ s.pos) (h9 : s.pos ≤ 9) (hh : s.half = false)
    (hm : s.p.baudUs ≤ 2 * (s.bt + s.elapsed)) (hf : s.bt + s.elapsed < s.p.baudUs) :
    activeFrame s = ⟨s.pos, s.bt + s.elapsed, true, shiftIn s.shift s.level, .noEvent, 0#8⟩ := by
  have hmid : atMidpoint s.p s.half (s.bt + s.elapsed) = true := by simp [atMidpoint, hh, hm]
  have hfull : atFullPeriod s.p s.pos (s.bt + s.elapsed) = false := by simp [atFullPeriod, hf]
  have h0 : s.pos ≠ 0 := by omega
  have h1 : s.pos ≠ 1 := by omega
  simp [activeFrame, cellMidpoint, hmid, h1, h9, dataMidpoint, cellFullPeriod, hfull, clearIdle, h0]

/-- The stop midpoint ends the frame (R107, R110). -/
theorem activeFrame_stop (s : State) (hp : 10 ≤ s.pos) (hh : s.half = false)
    (hm : s.p.baudUs ≤ 2 * (s.bt + s.elapsed)) :
    activeFrame s = ⟨0, 0, false, 0#8, if s.level then .byteDecoded else .stopBitError,
      if s.level then s.shift else 0#8⟩ := by
  have hmid : atMidpoint s.p s.half (s.bt + s.elapsed) = true := by simp [atMidpoint, hh, hm]
  have h0 : s.pos ≠ 0 := by omega
  have h1 : s.pos ≠ 1 := by omega
  have h9 : ¬ s.pos ≤ 9 := by omega
  cases hl : s.level <;>
    simp [activeFrame, cellMidpoint, hmid, h1, h9, stopMidpoint, hl, cellFullPeriod, atFullPeriod, clearIdle]

/-- DECODE while running, from Idle and from an active state (R101). -/
theorem execDecode_active (s : State) (hr : s.halted = false) (hp : s.pos ≠ 0) :
    execDecode s = .next (writeFrame s (activeFrame s)) := by
  simp [execDecode, hr, nextFrame, hp]

theorem execDecode_idle (s : State) (hr : s.halted = false) (hp : s.pos = 0) :
    execDecode s = .next (writeFrame s (idleFrame s)) := by
  simp [execDecode, hr, nextFrame, hp]

end Sys2Proof.Machine
end

