-- ==== Sys2Proof/Laws/PerInstr.lean ====
section
/-! SUPPORT. The family OpcodeRow: every command's word matches its own row of R49's opcode map, one lemma per constructor. -/

namespace Sys2Proof.Laws.OpcodeRow

/-- The word of a command matches its row of R49: `(word & mask) == match`, with no SLOT of 3. -/
def Statement (i : Instr) : Prop :=
  encode i &&& (opcodeRow i).mask = (opcodeRow i).pattern ∧ slotField (encode i) ≠ 3#2

theorem nop : Statement .nop := by unfold Statement; decide

theorem synth (slot : Slot) (hz : BitVec 26) : Statement (.synth slot hz) := by
  constructor
  · change (1#4 ++ slotCode slot ++ hz) &&& (15#4 ++ 0#2 ++ 0#26) = (1#4 ++ 0#2 ++ 0#26)
    rw [BitVec.and_append, BitVec.and_append, BitVec.and_zero, BitVec.and_zero]
    rfl
  · simp only [encode, slotField_encodeFields]
    cases slot <;> decide

theorem apply (slot : Slot) : Statement (.apply slot) := by unfold Statement; cases slot <;> decide

theorem txbit : Statement .txbit := by unfold Statement; decide

theorem sample : Statement .sample := by unfold Statement; decide

theorem decode : Statement .decode := by unfold Statement; decide

theorem poll : Statement .poll := by unfold Statement; decide

end Sys2Proof.Laws.OpcodeRow
end

