-- ==== Sys2Proof/Laws/Sampler.lean ====
section
/-! SUPPORT. The sample window: what writing one bit does to its count and its order of age, and the size's arithmetic (R9, R30, R31). -/

namespace Sys2Proof.Machine

/-- P_N is four times the hysteresis, which is positive; L in terms of it (R9, R94). -/
theorem winSize_quarters (p : Params) (hv : p.valid = true) :
    ∃ m, winSize p = 4 * m ∧ 1 ≤ m ∧ hysteresis p = m ∧ flipCount p = 5 * m / 2 + 1 := by
  have h := ((Params.valid_iff p).mp hv).winLog_ge
  obtain ⟨k, hk⟩ : ∃ k, p.winLog = k + 2 := ⟨p.winLog - 2, by omega⟩
  have hw : winSize p = 4 * 2 ^ k := by unfold winSize; rw [hk, pow_add]; ring
  refine ⟨2 ^ k, hw, Nat.one_le_two_pow, ?_, ?_⟩
  · unfold hysteresis; omega
  · unfold flipCount hysteresis; omega

/-- Overwriting one bit moves the count of ones by the difference of the two bits (R88, R93). -/
theorem count_set (l : List Bool) (i : Nat) (b old : Bool) (h : l[i]? = some old) :
    (l.set i b).count true + bitValue old = l.count true + bitValue b := by
  induction l generalizing i with
  | nil => simp at h
  | cons x l ih =>
    cases i with
    | zero => simp at h; subst h; cases x <;> cases b <;> simp [bitValue]
    | succ i => simp at h; have := ih i h; cases x <;> simp <;> omega

/-- Inserting, as one record (R88, step 2). -/
theorem insertNewest_eq (s : State) (b : Bool) :
    insertNewest s b = { s with win := s.win.set s.wpos b, histHi := s.histHi + bitValue b,
                                histLo := s.histLo + bitValue (!b) } := by
  cases b <;> rfl

/-- A legal window has a sample to evict. -/
theorem oldest_exists (s : State) (hW : WindowLegal s) : ∃ old, s.win[s.wpos]? = some old :=
  ⟨s.win[s.wpos]'(by rw [hW.2.1]; exact hW.2.2.1), List.getElem?_eq_getElem _⟩

/-- The bucket of the sample to evict holds it (R93). -/
theorem evicted_bucket_pos (s : State) (old : Bool) (hW : WindowLegal s) (hold : s.win[s.wpos]? = some old) :
    bitValue old ≤ s.histHi ∧ bitValue (!old) ≤ s.histLo := by
  obtain ⟨-, hlen, -, hsum, hcnt⟩ := hW
  have h2 := List.count_true_add_count_false s.win
  have := List.count_pos_iff.mpr (List.mem_of_getElem? hold)
  cases old <;> simp only [bitValue, Bool.not_true, Bool.not_false, if_true, Bool.false_eq_true, if_false] <;> omega

/-- The counts do not depend on where the oldest sample stands. -/
theorem sampleHistory_count (s : State) : (sampleHistory s).count true = s.win.count true := by
  unfold sampleHistory
  rw [List.count_append, Nat.add_comm, ← List.count_append, List.take_append_drop]

/-- Overwriting the oldest entry of a ring and moving on drops it and appends the new one, in order of age (R85). -/
theorem ring_set (l : List Bool) (i : Nat) (b : Bool) (hi : i < l.length) :
    (l.set i b).drop ((i + 1) % l.length) ++ (l.set i b).take ((i + 1) % l.length)
      = (l.drop i ++ l.take i).tail ++ [b] := by
  by_cases h : i + 1 = l.length
  · have e : l.drop i = [l[i]] := by rw [List.drop_eq_getElem_cons hi, h]; simp
    rw [h, Nat.mod_self, e, List.set_eq_take_append_cons_drop, if_pos hi, h]
    simp
  · rw [Nat.mod_eq_of_lt (by omega), List.drop_eq_getElem_cons hi]
    simp only [List.cons_append, List.tail_cons]
    rw [List.set_eq_take_append_cons_drop, if_pos hi, List.drop_append, List.take_append]
    have e1 : List.drop (i + 1) (List.take i l) = [] := List.drop_eq_nil_of_le (by simp)
    have e2 : List.take (i + 1) (List.take i l) = List.take i l := by rw [List.take_take]; congr 1; omega
    simp [List.length_take, Nat.min_eq_left hi.le, e1, e2]

@[simp] theorem alternating_length (n : Nat) (b : Bool) : (alternating n b).length = n := by
  induction n generalizing b with
  | zero => rfl
  | succ n ih => simp [alternating, ih]

/-- An alternating run, from its end. -/
theorem alternating_succ (n : Nat) (b : Bool) :
    alternating (n + 1) b = alternating n b ++ [if n % 2 = 0 then b else !b] := by
  induction n generalizing b with
  | zero => rfl
  | succ n ih =>
    rw [alternating, ih, alternating, List.cons_append]
    have : (n + 1) % 2 = 0 ↔ ¬ n % 2 = 0 := by omega
    by_cases h : n % 2 = 0 <;> simp [this, h]

/-- How often a level occurs in an alternating run. -/
theorem alternating_count (n : Nat) (b c : Bool) :
    (alternating n b).count c = if b = c then (n + 1) / 2 else n / 2 := by
  induction n generalizing b with
  | zero => simp [alternating]
  | succ n ih =>
    rw [alternating, List.count_cons, ih]
    cases b <;> cases c <;> simp <;> omega

end Sys2Proof.Machine
end

