-- ==== Sys2Proof/Tests/Slice0.lean ====
section
/-! SUPPORT. The model's own tests, each expected value from spec/95_test_vectors.md or worked by hand from the rule named, and a witness for the hypotheses of every statement that has some. -/

namespace Sys2Proof.Tests

open Sys2Proof.Machine

/-! ### The states the tests start from -/

/-- The vector parameters of 95_test_vectors.md. -/
def vecParams : Params where
  clockHz := 16000000
  dividers := [1, 8, 64, 256, 1024]
  oscW := 8
  maxCmp := 255
  winLog := 5
  samplePeriodUs := 128
  quantumUs := 128
  quantumCycles := 2048
  baudUs := 22000
  msg := [0x41#8]
  txPresent := true
  busyPresent := true

/-- The vector parameters, legal. -/
def vec : LegalParams := ⟨vecParams, by decide⟩

/-- P5's parameters: a clock of 1000 Hz; two message bytes, as T2 has them. -/
def slow : LegalParams := ⟨{ vecParams with clockHz := 1000, msg := [0x41#8, 0x42#8] }, by decide⟩

/-- P3's small receiver. -/
def tiny : LegalParams :=
  ⟨{ vecParams with clockHz := 1000000, winLog := 2, samplePeriodUs := 1, quantumUs := 1, quantumCycles := 1,
                    baudUs := 8 }, by decide⟩

/-- The vector parameters without the transmit framer and the BUSY pin. -/
def bare : LegalParams := ⟨{ vecParams with txPresent := false, busyPresent := false }, by decide⟩

/-- C3's parameters: a clock of 15 Hz and one divider. -/
def oneDivider : LegalParams := ⟨{ vecParams with clockHz := 15, dividers := [1] }, by decide⟩

/-- The reset state of a block with the given parameters, RX_IN low and no input pending. -/
def fresh (par : LegalParams) : State := State.resetWith par false []

/-- The result is a next state of which `f` holds. -/
def reaches (r : Result) (f : State → Bool) : Bool :=
  match r with
  | .next t => f t
  | _ => false

/-- The tones of SETUP 2295, 2125 (V-SYNTH 1 and 2). -/
def setUp (par : LegalParams) : State :=
  { fresh par with cfgMark := ⟨3, 53, 136960, 15863040⟩, cfgSpace := ⟨3, 58, 48000, 16048000⟩ }

/-- A slot of divider 8 with CMP 2 in MARK, as O1 to O3 have it. -/
def o1 : State := { fresh vec with cfgMark := ⟨2, 2, 0, 1⟩ }

/-- An active decoder (D-4 to D-9): ELAPSED one quantum. -/
def frameAt (pos bt : Nat) (half : Bool) (shift : Byte) (level : Bool) : State :=
  { fresh vec with pos := pos, bt := bt, half := half, shift := shift, level := level, elapsed := 128,
                   win := List.replicate 32 level, histLo := if level then 0 else 32,
                   histHi := if level then 32 else 0 }

/-- A halted block. -/
def haltedState : State := { fresh vec with halted := true, faultCode := .illegalCommand, faultCmd := 0x70000000#32 }

/-! ### WellFormed: the one check refuses the one ill-formed command (R136) -/

theorem test_wellFormed_refuses_txbit_without_framer : Instr.wellFormed false .txbit = false := by decide

theorem test_wellFormed_accepts_txbit_with_framer : Instr.wellFormed true .txbit = true := by decide

theorem test_parameters_refused :
    Params.valid { vecParams with quantumUs := 129 } = false
    ∧ Params.valid { vecParams with dividers := [] } = false
    ∧ Params.valid { vecParams with dividers := [0] } = false
    ∧ Params.valid { vecParams with maxCmp := 256 } = false
    ∧ Params.valid { vecParams with winLog := 1 } = false
    ∧ Params.valid { vecParams with msg := [] } = false
    ∧ Params.valid { vecParams with baudUs := 255 } = false := by decide

/-! ### Decoding: words written out from R48 and R49, OP, SLOT, IMM (V-ENC) -/

theorem test_decode_nop : decode true 0b00000000000000000000000000000000#32 = .ok .nop := by decide

theorem test_decode_synth :
    decode true 0b00010100000000000000100011110111#32 = .ok (.synth .mark 2295#26)
    ∧ decode true 0b00011000000000000000100001001101#32 = .ok (.synth .space 2125#26)
    ∧ decode true 0b00010000000000000000000000000000#32 = .ok (.synth .none 0#26)
    ∧ decode true 0b00010111111111111111111111111111#32 = .ok (.synth .mark 67108863#26) := by decide

theorem test_decode_apply :
    decode true 0b00100000000000000000000000000000#32 = .ok (.apply .none)
    ∧ decode true 0b00100100000000000000000000000000#32 = .ok (.apply .mark)
    ∧ decode true 0b00101000000000000000000000000000#32 = .ok (.apply .space) := by decide

theorem test_decode_txbit : decode true 0b00110000000000000000000000000000#32 = .ok .txbit := by decide

theorem test_decode_sample : decode true 0b01000000000000000000000000000000#32 = .ok .sample := by decide

theorem test_decode_decode : decode true 0b01010000000000000000000000000000#32 = .ok .decode := by decide

theorem test_decode_poll : decode true 0b01100000000000000000000000000000#32 = .ok .poll := by decide

/-- The illegal words of V-FAULT. -/
theorem test_decode_illegal :
    decode true 0x70000000#32 = .error .reservedOpcode
    ∧ decode true 0xF0000000#32 = .error .reservedOpcode
    ∧ decode true 0x2C000000#32 = .error .slotThree
    ∧ decode true 0x1C000001#32 = .error .slotThree
    ∧ decode true 0x24000001#32 = .error .reservedField
    ∧ decode true 0x00000001#32 = .error .reservedField
    ∧ decode true 0x40000004#32 = .error .reservedField
    ∧ decode true 0x64000000#32 = .error .reservedField
    ∧ decode false 0x30000000#32 = .error .unitAbsent := by decide

theorem test_decodeTableWord :
    decodeTableWord 32 0x140008F7 = some (.synth .mark 2295#26) ∧ decodeTableWord 32 0x30000000 = some .txbit
    ∧ decodeTableWord 32 0x80000000 = none := by decide

/-! ### The assembler's syntax (R50, R53) -/

theorem test_assemble_synth :
    assemble ["SYNTH MARK, 2295 ; mark".toList, "".toList, "SYNTH 1, 0x8F7".toList]
      = some [0x140008F7#32, 0x140008F7#32] := by decide

theorem test_assemble_pseudo :
    assemble ["RXITER".toList, "SETUP 2295, 2125".toList, "TONE_OFF".toList, "APPLY SPACE".toList]
      = some [0x60000000#32, 0x40000000#32, 0x50000000#32, 0x10000000#32, 0x140008F7#32, 0x1800084D#32,
              0x20000000#32, 0x28000000#32] := by decide

theorem test_assemble_refuses :
    assemble ["SYNTH MARK, 67108864".toList] = none ∧ assemble ["APPLY 3".toList] = none
    ∧ assemble ["NOP 0".toList] = none := by decide

/-! ### The commands -/

/-- N-1. -/
theorem test_nop : exec .nop (setUp vec) = .next (setUp vec) := rfl

/-- V-SYNTH 1 (R58's worked example) and the tie of V-SYNTH 7. -/
theorem test_synth_best :
    reaches (exec (.synth .mark 2295#26) (fresh vec)) (fun t => t.cfgMark = ⟨3, 53, 136960, 15863040⟩) = true
    ∧ reaches (exec (.synth .space 62500#26) (fresh vec)) (fun t => t.cfgSpace = ⟨1, 127, 0, 16000000⟩) = true := by
  decide

/-- F-1 and C5: CONFIG_UNREACHABLE, the slot unchanged, FAULT_CMD the word. -/
theorem test_synth_unreachable :
    reaches (exec (.synth .mark 10#26) (setUp vec)) (fun t => t.halted && decide (t.faultCode = .configUnreachable)
      && decide (t.faultCmd = 0x1400000A#32) && decide (t.cfgMark = ⟨3, 53, 136960, 15863040⟩)) = true := by decide

/-- R68's worked example: SEL 3, CMP 53, and the counter zeroed. -/
theorem test_apply_mark :
    reaches (exec (.apply .mark) { setUp vec with oscCnt := 46, psc := 512, toneOut := true })
      (fun t => decide ((t.oscSel, t.oscCmp, t.oscCnt, t.psc, t.toneOut) = (3, 53, 0, 512, true))) = true := by decide

/-- P5, the last of its eight CLK steps: a compare match toggles TONE_OUT back to 0. -/
theorem test_clk_compare_match :
    reaches (clkStep { fresh slow with oscSel := 1, oscCmp := 1, oscCnt := 1, psc := 7, tbCnt := 7, toneOut := true })
      (fun t => decide ((t.psc, t.oscCnt, t.toneOut, t.tbCnt, t.ovf) = (8, 0, false, 8, false))) = true := by decide

/-- R78's worked example: bit 6 of 0x41 is 1, so MARK. -/
theorem test_txbit_data_cell :
    reaches (exec .txbit { setUp vec with txb := 2, oscCnt := 7 })
      (fun t => decide ((t.oscSel, t.oscCmp, t.oscCnt, t.txi, t.txb) = (3, 53, 0, 0, 3))) = true := by decide

/-- T2: the stop cell of the last byte goes back to the first byte. -/
theorem test_txbit_wraps :
    reaches (exec .txbit { setUp slow with txi := 1, txb := 9 })
      (fun t => decide ((t.oscCmp, t.txi, t.txb) = (53, 0, 0))) = true := by decide

/-- S-8's last SAMPLE: the oldest sample, a 1, is evicted. -/
theorem test_sample_evicts_oldest :
    reaches (exec .sample { fresh tiny with elapsed := 1, win := [true, false, false, true], histLo := 2, histHi := 2 })
      (fun t => decide ((t.win, t.wpos, t.histHi, t.histLo) = ([false, false, false, true], 1, 1, 3))) = true := by
  decide

/-- R86's worked example: 21 > 11 + 8, so LEVEL falls with EDGE. -/
theorem test_sample_falling_edge :
    reaches (exec .sample { fresh vec with elapsed := 128, level := true, histLo := 20, histHi := 12,
                                           win := List.replicate 12 true ++ List.replicate 20 false })
      (fun t => decide ((t.histLo, t.histHi, t.level, t.edge) = (21, 11, false, true))) = true := by decide

/-- D-8: R101's worked example. -/
theorem test_decode_byte :
    reaches (exec .decode (frameAt 10 10900 false 0x41#8 true))
      (fun t => decide ((t.eventKind, t.eventData) = (.byteDecoded, 0x41#8))
        && decide ((t.pos, t.bt, t.half, t.shift) = (0, 0, false, 0#8))) = true := by decide

/-- D-7: a data midpoint. -/
theorem test_decode_data_midpoint :
    reaches (exec .decode (frameAt 3 10900 false 0x20#8 true))
      (fun t => decide ((t.pos, t.bt, t.half, t.shift) = (3, 11028, true, 0x41#8))) = true := by decide

/-- B-2: an overflow is one quantum, and is taken. -/
theorem test_poll_takes_overflow :
    reaches (exec .poll { fresh vec with ovf := true }) (fun t => decide ((t.elapsed, t.ovf) = (128, false))) = true := by
  decide

/-- B-2's second POLL. -/
theorem test_poll_without_overflow :
    reaches (exec .poll { fresh vec with elapsed := 128 }) (fun t => decide (t.elapsed = 0)) = true := by decide

/-- P2: a command after the fault is ignored. -/
theorem test_halted_ignores : runWord 0x24000000#32 haltedState = .next haltedState := rfl

/-- R26, R34: the status outputs and BUSY of an active decoder. -/
theorem test_status :
    (statusOf (frameAt 10 10900 false 0x41#8 true)).pos = 10#4 ∧ busyPin (frameAt 10 10900 false 0x41#8 true) = some true
    ∧ busyPin (fresh bare) = none := by decide

/-- R33, R37: the codes at the status outputs, and R122's TONE_OUT. -/
theorem test_status_codes :
    (statusOf { fresh vec with eventKind := .byteDecoded }).eventKind = 3#2
    ∧ (statusOf { fresh vec with eventKind := .stopBitError }).eventKind = 2#2
    ∧ (statusOf haltedState).faultCode = 2#2 ∧ (statusOf { fresh vec with toneOut := true }).toneOut = 1#1 := by decide

/-- R126: SETUP, the variant's APPLY, one RXITER. -/
theorem test_receiverProgram :
    wordsOf (receiverProgram 2295#26 2125#26 [.mark] 1)
      = [0x10000000#32, 0x140008F7#32, 0x1800084D#32, 0x24000000#32, 0x60000000#32, 0x40000000#32, 0x50000000#32] := by
  decide

/-! ### Witnesses: for every statement with hypotheses, states and operands that meet them together -/

theorem witness_DecodeOfEncodeIsTheCommand :
    (Instr.synth .space 67108863#26).wellFormed false = true ∧ Instr.txbit.wellFormed true = true := by decide

theorem witness_EncodeOfDecodeIsTheWord : decode true 0x17FFFFFF#32 = .ok (.synth .mark 67108863#26) := by decide

theorem witness_LegalWordsAreTheOpcodeMap :
    decode true 0x24000000#32 = .ok (.apply .mark) ∧ opcodeRow (.apply .mark) ∈ opcodeTable
    ∧ (opcodeRow (.apply .mark)).accepts true 0x24000000#32 = true := by decide

theorem witness_IllegalWordsRaiseIllegalCommand :
    (fresh vec).halted = false ∧ decode (fresh vec).p.txPresent 0x1C000001#32 = .error .slotThree
    ∧ decode (fresh vec).p.txPresent 0x24000001#32 = .error .reservedField
    ∧ decode (fresh vec).p.txPresent 0x40000004#32 = .error .reservedField
    ∧ decode (fresh vec).p.txPresent 0x70000000#32 = .error .reservedOpcode
    ∧ decode (fresh bare).p.txPresent 0x30000000#32 = .error .unitAbsent := by decide

theorem witness_TxbitLegalOnlyWithTheFramer :
    (0x30000001#32 : Word) ≠ 0x30000000#32 ∧ (fresh bare).halted = false ∧ (fresh bare).p.txPresent = false := by decide

theorem witness_StepRunsTheDecodedCommand :
    ({ fresh vec with inputs := [.cmd 0x24000000#32, .clk] } : State).inputs = .cmd 0x24000000#32 :: [.clk]
    ∧ decode (fresh vec).p.txPresent 0x24000000#32 = .ok (.apply .mark) := by decide

theorem witness_StepOfEveryOtherInput :
    ({ fresh vec with inputs := [.clk] } : State).inputs = .clk :: [] ∧ (fresh vec).inputs = []
    ∧ ({ fresh vec with inputs := [.rxLevel true] } : State).inputs = .rxLevel true :: []
    ∧ ({ fresh vec with inputs := [.reset] } : State).inputs = .reset :: []
    ∧ ({ fresh vec with inputs := [.cmd 0x70000000#32] } : State).inputs = .cmd 0x70000000#32 :: []
    ∧ decode (fresh vec).p.txPresent 0x70000000#32 = .error .reservedOpcode := by decide

theorem witness_HaltedIgnoresEveryCommand :
    haltedState.halted = true ∧ clkStep (fresh vec) = .next { fresh vec with psc := 1, tbCnt := 1 } := ⟨rfl, by rfl⟩

theorem witness_OnlyResetLeavesTheHalt :
    step haltedState = .next { haltedState with psc := 1, tbCnt := 1 } ∧ haltedState.halted = true
    ∧ haltedState.inputs.head? ≠ some .reset
    ∧ ({ haltedState with inputs := [.reset] } : State).inputs = .reset :: [] := ⟨by rfl, rfl, by decide, rfl⟩

theorem witness_FaultPriority :
    haltedState.halted = true ∧ (fresh vec).halted = false
    ∧ decode (fresh vec).p.txPresent 0x70000000#32 = .error .reservedOpcode
    ∧ decode (fresh vec).p.txPresent 0x1400000A#32 = .ok (.synth .mark 10#26)
    ∧ runWord 0x1400000A#32 (fresh vec) = .next (raiseFault .configUnreachable 0x1400000A#32 (fresh vec))
    ∧ (raiseFault .configUnreachable 0x1400000A#32 (fresh vec)).halted = true :=
  ⟨rfl, rfl, by decide, by decide, by rfl, rfl⟩

theorem witness_ResetRestoresEveryRegister :
    ({ haltedState with inputs := [.reset, .clk] } : State).inputs = .reset :: [.clk] ∧ haltedState.p.busyPresent = true := by
  decide

/-- A legal state with an oscillator running, a frame in flight, a full window of ones and the framer at a data cell. -/
def busyState : State :=
  { frameAt 9 10999 false 0x20#8 true with
    cfgMark := ⟨3, 53, 136960, 15863040⟩, cfgSpace := ⟨3, 58, 48000, 16048000⟩, oscSel := 3, oscCmp := 53,
    oscCnt := 53, psc := 1023, txb := 9, tbCnt := 2047, inputs := [.clk, .cmd 0x50000000#32] }

theorem busyState_legal : Legal busyState := by decide

theorem witness_EveryStepKeepsTheInvariant : Legal busyState ∧ ∃ t, step busyState = .next t :=
  ⟨busyState_legal, _, rfl⟩

theorem witness_EveryStepKeepsTheInvariant_halted : Legal haltedState ∧ ∃ t, step haltedState = .next t :=
  ⟨by decide, _, rfl⟩

theorem witness_EveryLegalStepCompletes : Legal busyState := busyState_legal

theorem witness_NoStepChangesTheParameters : ∃ t, step busyState = .next t := ⟨_, rfl⟩

theorem witness_PollTakesTheOverflow : (fresh vec).halted = false ∧ ({ fresh vec with ovf := true } : State).ovf = true := by
  decide

theorem witness_TimebaseAfterManyCycles :
    busyState.tbCnt < busyState.p.quantumCycles ∧ ∃ t, runClks 2 busyState = .next t := ⟨by decide, _, rfl⟩

theorem witness_PollLosesNoTimeWithinAQuantum :
    Legal busyState ∧ busyState.halted = false ∧ 1 < busyState.p.quantumCycles
    ∧ ∃ t, runInputs (.cmd 0x60000000#32 :: List.replicate 1 .clk ++ [.cmd 0x60000000#32]) busyState = .next t :=
  ⟨busyState_legal, rfl, by decide, _, rfl⟩

theorem witness_PollAgainstOverflowByOrder :
    Legal busyState ∧ busyState.halted = false ∧ busyState.ovf = false
    ∧ busyState.tbCnt = busyState.p.quantumCycles - 1 := ⟨busyState_legal, rfl, rfl, rfl⟩

/-- A state where a single divider accepts the target: C3, T = 10, q = 0.75, c = 0. -/
theorem accepted_oneDivider : Accepted (fresh oneDivider).p (10#26).toNat 1 1 0 := by
  refine ⟨rfl, ?_, by decide⟩
  have h : ((fresh oneDivider).p.clockHz : ℚ) = 15 := by norm_num [fresh, State.resetWith, oneDivider]
  rw [h]
  norm_num [roundHalfAway]

/-- No divider accepts: C3, T = 15, q exactly one half. -/
theorem notAccepted_oneDivider : ¬ ∃ i d c, Accepted (fresh oneDivider).p (15#26).toNat i d c := by
  rintro ⟨i, d, c, h1, h2, -⟩
  have h : ((fresh oneDivider).p.clockHz : ℚ) = 15 := by norm_num [fresh, State.resetWith, oneDivider]
  have hd : d = 1 := by
    rcases i with _ | _ | i
    · cases h1
    · exact (Option.some.inj h1).symm
    · cases h1
  subst hd
  rw [h] at h2
  norm_num [roundHalfAway] at h2
  omega

theorem witness_CompareValueIsTheRoundedRational :
    1 ≤ 15 ∧ 1 ≤ 1 ∧ 1 ≤ 10 ∧ compareValue 15 1 10 = some 0 ∧ compareValue 15 1 15 = none := by decide

theorem witness_StoredErrorIsTheFrequencyError :
    vecParams.valid = true ∧ 1 ≤ 2295 ∧ 2295 < 2 ^ 26 ∧ dividerOf vecParams 3 = some 64
    ∧ candidate vecParams 2295 3 64 = some ⟨3, 53, 136960, 15863040⟩ :=
  ⟨by decide, by norm_num, by norm_num, rfl, by norm_num [candidate, compareValue, candidateNum, candidateDen, vecParams]⟩

theorem witness_SynthOfZeroDisables : (setUp vec).halted = false := rfl

theorem witness_SynthWritesTheBestCandidate :
    (fresh oneDivider).halted = false ∧ (10#26 : BitVec 26) ≠ 0#26
    ∧ ∃ i d c, Accepted (fresh oneDivider).p (10#26).toNat i d c :=
  ⟨rfl, by decide, _, _, _, accepted_oneDivider⟩

theorem witness_SynthUnreachableHalts :
    (fresh oneDivider).halted = false ∧ (15#26 : BitVec 26) ≠ 0#26
    ∧ ¬ ∃ i d c, Accepted (fresh oneDivider).p (15#26).toNat i d c :=
  ⟨rfl, by decide, notAccepted_oneDivider⟩

theorem witness_ApplyLoadsTheOscillator : busyState.halted = false := rfl

theorem witness_ApplyTwiceIsApplyOnce : ∃ t, exec (.apply .space) busyState = .next t := ⟨_, rfl⟩

theorem witness_RetuneTakesEffectAtApply :
    ∃ t u, busyState.halted = false ∧ exec (.synth .mark 2125#26) busyState = .next t ∧ t.halted = false
      ∧ exec (.apply .mark) t = .next u := ⟨_, _, rfl, rfl, by decide, rfl⟩

theorem witness_DisabledOscillatorHoldsTheLine :
    ({ fresh vec with psc := 1023, toneOut := true } : State).oscSel = 0
    ∧ ({ fresh vec with psc := 1023, toneOut := true } : State).psc < pscMod vecParams := by decide

theorem witness_OscillatorAfterManyCycles :
    dividerOf busyState.p busyState.oscSel = some 64 ∧ busyState.oscCmp ≤ busyState.p.maxCmp
    ∧ busyState.oscCnt ≤ busyState.oscCmp ∧ busyState.psc < pscMod busyState.p := by decide

/-- O2: an APPLY at PSC = 7 of divider 8 with CMP 2; k = 1. -/
theorem witness_FirstToggleAfterApplyAndItsPeriod :
    ∃ t, Legal { o1 with psc := 7 } ∧ ({ o1 with psc := 7 } : State).halted = false
      ∧ dividerOf o1.p (readSlot { o1 with psc := 7 } .mark).sel = some 8
      ∧ (readSlot { o1 with psc := 7 } .mark).cmp = 2 ∧ exec (.apply .mark) { o1 with psc := 7 } = .next t :=
  ⟨_, by decide, by decide, by decide, by decide, rfl⟩

theorem witness_ClkStepWritesItsFiveRegisters : Legal busyState ∧ ∃ t, clkStep busyState = .next t :=
  ⟨busyState_legal, _, rfl⟩

theorem witness_TxbitSendsTheCurrentCell :
    busyState.halted = false ∧ busyState.p.txPresent = true ∧ busyState.p.msg[busyState.txi]? = some 0x41#8
    ∧ (frameBits 0x41#8)[busyState.txb]? = some true ∧ (setUp vec).p.msg[(setUp vec).txi]? = some 0x41#8
    ∧ (frameBits 0x41#8)[(setUp vec).txb]? = some false := by decide

theorem witness_TenTxbitsSendOneFrame :
    (setUp vec).halted = false ∧ (setUp vec).p.txPresent = true ∧ (setUp vec).txb = 0
    ∧ (setUp vec).p.msg[(setUp vec).txi]? = some 0x41#8 ∧ (frameBits 0x41#8)[9]? = some true := by decide

theorem witness_SampleWithoutACrossing :
    ({ busyState with elapsed := 0, sacc := 127 } : State).halted = false
    ∧ ({ busyState with elapsed := 0, sacc := 127 } : State).sacc + 0 < busyState.p.samplePeriodUs := by decide

/-- R86's worked example, one clause of the level each: from 1 past the margin, and from 0 exactly at it (R98). -/
def falling : State :=
  { fresh vec with elapsed := 128, level := true, histLo := 20, histHi := 12,
                   win := List.replicate 12 true ++ List.replicate 20 false }

def holding : State :=
  { fresh vec with elapsed := 128, rxIn := true, histLo := 13, histHi := 19,
                   win := List.replicate 13 false ++ List.replicate 19 true }

theorem witness_SampleOnACrossing :
    falling.halted = false ∧ WindowLegal falling ∧ falling.p.samplePeriodUs ≤ falling.sacc + falling.elapsed
    ∧ falling.win[falling.wpos]? = some true ∧ 21 + bitValue (!true) = falling.histLo + bitValue (!falling.rxIn)
    ∧ 11 + bitValue true = falling.histHi + bitValue falling.rxIn
    ∧ (falling.level = true → (false = false ↔ 21 > 11 + winSize falling.p / 4))
    ∧ (falling.level = false → (false = true ↔ 11 > 21 + winSize falling.p / 4)) := by decide

theorem witness_SampleOnACrossing_at_the_margin :
    holding.halted = false ∧ WindowLegal holding ∧ holding.p.samplePeriodUs ≤ holding.sacc + holding.elapsed
    ∧ holding.win[holding.wpos]? = some false ∧ 12 + bitValue (!false) = holding.histLo + bitValue (!holding.rxIn)
    ∧ 20 + bitValue false = holding.histHi + bitValue holding.rxIn
    ∧ (holding.level = true → (false = false ↔ 12 > 20 + winSize holding.p / 4))
    ∧ (holding.level = false → (false = true ↔ 20 > 12 + winSize holding.p / 4)) := by decide

theorem witness_WindowIsTheLastSamples :
    ∃ t, falling.halted = false ∧ WindowLegal falling ∧ falling.p.samplePeriodUs ≤ falling.sacc + falling.elapsed
      ∧ exec .sample falling = .next t := ⟨_, rfl, by decide, by decide, rfl⟩

theorem witness_HistogramMirrorsTheWindow :
    ∃ t, falling.win.length = winSize falling.p ∧ falling.histLo + falling.histHi = winSize falling.p
      ∧ falling.histHi = falling.win.count true ∧ exec .sample falling = .next t := ⟨_, rfl, rfl, by decide, rfl⟩

theorem witness_FlipThresholdInCounts :
    vecParams.valid = true ∧ 21 + 11 = winSize vecParams ∧ winSize vecParams = 32 ∧ flipCount vecParams = 21 := by decide

theorem witness_DebounceLatencyIsTheFlipCount :
    (frameAt 0 0 false 0#8 true).halted = false ∧ WindowLegal (frameAt 0 0 false 0#8 true)
    ∧ (frameAt 0 0 false 0#8 true).elapsed = vecParams.samplePeriodUs
    ∧ (frameAt 0 0 false 0#8 true).win = List.replicate (winSize vecParams) true
    ∧ (frameAt 0 0 false 0#8 true).level = true ∧ 20 + 1 = flipCount vecParams ∧ 19 + 1 < flipCount vecParams := by decide

theorem witness_AlternatingSamplesGiveNoEdge :
    (frameAt 0 0 false 0#8 false).halted = false ∧ WindowLegal (frameAt 0 0 false 0#8 false)
    ∧ (frameAt 0 0 false 0#8 false).elapsed = vecParams.samplePeriodUs
    ∧ (frameAt 0 0 false 0#8 false).win = List.replicate (winSize vecParams) false
    ∧ (frameAt 0 0 false 0#8 false).level = false := by decide

/-- A window of alternating samples, the oldest not at index 0. -/
def alternatingState : State :=
  { fresh tiny with elapsed := 1, win := [true, false, true, false], wpos := 1, histLo := 2, histHi := 2 }

theorem witness_AlternatingSamplesGiveNoEdge_full :
    alternatingState.halted = false ∧ WindowLegal alternatingState
    ∧ alternatingState.elapsed = alternatingState.p.samplePeriodUs
    ∧ sampleHistory alternatingState = alternating (winSize alternatingState.p) false := by decide

theorem witness_IdleDecodeWaitsForAFallingEdge :
    (fresh vec).halted = false ∧ (fresh vec).pos = 0 ∧ ({ fresh vec with edge := true } : State).edge = true
    ∧ ({ fresh vec with edge := true } : State).level = false ∧ (fresh vec).edge = false := by decide

theorem witness_ActiveDecodeBetweenTestsOnlyTimes :
    (frameAt 5 12000 true 0#8 false).halted = false ∧ (frameAt 5 12000 true 0#8 false).pos ≠ 0
    ∧ (frameAt 5 12000 true 0#8 false).half = true ∧ 12000 + (frameAt 5 12000 true 0#8 false).elapsed < vecParams.baudUs
    ∧ (frameAt 5 10871 false 0#8 false).half = false
    ∧ 2 * (10871 + (frameAt 5 10871 false 0#8 false).elapsed) < vecParams.baudUs := by decide

theorem witness_StartMidpointChecksTheStartBit_legal :
    Legal (frameAt 1 10872 false 0#8 true) ∧ Legal (frameAt 1 10872 false 0#8 false) := ⟨by decide, by decide⟩

theorem witness_StartMidpointChecksTheStartBit :
    (frameAt 1 10872 false 0#8 true).level = true ∧ (frameAt 1 10872 false 0#8 false).level = false
    ∧ (frameAt 1 10872 false 0#8 true).halted = false ∧ (frameAt 1 10872 false 0#8 true).half = false
    ∧ vecParams.baudUs ≤ 2 * (10872 + (frameAt 1 10872 false 0#8 true).elapsed) := by decide

theorem witness_DataMidpointShiftsTheLevelIn_legal :
    Legal (frameAt 2 10872 false 0xFF#8 true) ∧ Legal (frameAt 9 10999 false 0x20#8 false) := ⟨by decide, by decide⟩

theorem witness_DataMidpointShiftsTheLevelIn :
    (frameAt 2 10872 false 0xFF#8 true).halted = false ∧ (frameAt 2 10872 false 0xFF#8 true).half = false
    ∧ vecParams.baudUs ≤ 2 * (10872 + (frameAt 2 10872 false 0xFF#8 true).elapsed) := by decide

theorem witness_StopMidpointEndsTheFrame :
    (frameAt 10 10872 false 0x41#8 true).halted = false ∧ (frameAt 10 10872 false 0x41#8 true).pos = 10
    ∧ (frameAt 10 10872 false 0x41#8 true).half = false
    ∧ vecParams.baudUs ≤ 2 * (10872 + (frameAt 10 10872 false 0x41#8 true).elapsed) := by decide

theorem witness_FullPeriodCarriesTheRemainderOver :
    (frameAt 9 21872 true 0x41#8 true).halted = false ∧ (frameAt 9 21872 true 0x41#8 true).pos ≠ 0
    ∧ (frameAt 9 21872 true 0x41#8 true).half = true
    ∧ vecParams.baudUs ≤ 21872 + (frameAt 9 21872 true 0x41#8 true).elapsed := by decide

theorem witness_FrameTimeHasNoDrift :
    ∃ t, (frameAt 9 21900 true 0x41#8 true).halted = false ∧ (frameAt 9 21900 true 0x41#8 true).pos ≠ 0
      ∧ exec .decode (frameAt 9 21900 true 0x41#8 true) = .next t ∧ t.pos ≠ 0 := ⟨_, rfl, by decide, rfl, by decide⟩

theorem witness_IdleHoldsNoPartialByte :
    ∃ t, ((frameAt 10 10900 false 0x41#8 true).pos = 0 → (frameAt 10 10900 false 0x41#8 true).bt = 0
        ∧ (frameAt 10 10900 false 0x41#8 true).half = false ∧ (frameAt 10 10900 false 0x41#8 true).shift = 0#8)
      ∧ exec .decode (frameAt 10 10900 false 0x41#8 true) = .next t ∧ t.pos = 0 := ⟨_, by decide, rfl, by decide⟩

theorem witness_TimerStaysBelowTheBaudPeriod :
    ∃ t, (frameAt 9 21999 true 0x41#8 true).bt < (frameAt 9 21999 true 0x41#8 true).p.baudUs
      ∧ TimebaseLegal (frameAt 9 21999 true 0x41#8 true)
      ∧ exec .decode (frameAt 9 21999 true 0x41#8 true) = .next t := ⟨_, by decide, by decide, rfl⟩

/-- P3's baud of 8 and P3's line: 76 DECODEs of 1 µs from the start of the frame to the stop midpoint. -/
theorem witness_FrameRoundTripDecodesTheByte :
    ({ fresh tiny with pos := 1 } : State).halted = false ∧ ({ fresh tiny with pos := 1 } : State).pos = 1
    ∧ (fresh tiny).bt = 0 ∧ (fresh tiny).half = false ∧ (fresh tiny).shift = 0#8
    ∧ (∀ t, t < 10 * (fresh tiny).p.baudUs →
        (frameBits 0x41#8)[t / (fresh tiny).p.baudUs]? = some ((frameBits 0x41#8).getD (t / 8) true))
    ∧ (∀ x ∈ 1 :: List.replicate 75 1, 2 * x ≤ (fresh tiny).p.baudUs)
    ∧ 2 * (List.replicate 75 1).sum < 19 * (fresh tiny).p.baudUs
    ∧ 19 * (fresh tiny).p.baudUs ≤ 2 * ((List.replicate 75 1).sum + 1) := by decide

theorem witness_FramingErrorsAreReported_start :
    ({ fresh tiny with pos := 1 } : State).halted = false ∧ ({ fresh tiny with pos := 1 } : State).pos = 1
    ∧ (fresh tiny).bt = 0 ∧ (fresh tiny).half = false ∧ 2 * (List.replicate 3 1).sum < (fresh tiny).p.baudUs
    ∧ (fresh tiny).p.baudUs ≤ 2 * ((List.replicate 3 1).sum + 1)
    ∧ (fun t => decide (3 ≤ t)) ((List.replicate 3 1).sum + 1) = true := by decide

theorem witness_FramingErrorsAreReported_stop :
    ({ fresh tiny with pos := 1 } : State).halted = false ∧ ({ fresh tiny with pos := 1 } : State).pos = 1
    ∧ (fresh tiny).bt = 0 ∧ (fresh tiny).half = false
    ∧ (∀ t, t < (fresh tiny).p.baudUs → (decide (8 ≤ t) && decide (t < 72)) = false)
    ∧ (∀ t, t < 10 * (fresh tiny).p.baudUs → 9 * (fresh tiny).p.baudUs ≤ t → (decide (8 ≤ t) && decide (t < 72)) = false)
    ∧ (∀ x ∈ 4 :: List.replicate 18 4, 2 * x ≤ (fresh tiny).p.baudUs)
    ∧ 2 * (List.replicate 18 4).sum < 19 * (fresh tiny).p.baudUs
    ∧ 19 * (fresh tiny).p.baudUs ≤ 2 * ((List.replicate 18 4).sum + 4) := by decide

theorem witness_TransmitCommandsFrame :
    (∃ t, exec (.synth .mark 2295#26) busyState = .next t ∧ t.halted = false)
    ∧ (∃ t, exec (.synth .mark 10#26) busyState = .next t ∧ t.halted = true) ∧ (∃ t, exec (.apply .space) busyState = .next t)
    ∧ (∃ t, exec .txbit busyState = .next t) ∧ busyState.p.txPresent = true
    ∧ (∃ t, exec .txbit (fresh bare) = .next t) ∧ (fresh bare).p.txPresent = false ∧ Slot.space ≠ Slot.mark :=
  ⟨⟨_, rfl, by decide⟩, ⟨_, rfl, by decide⟩, ⟨_, rfl⟩, ⟨_, rfl⟩, rfl, ⟨_, rfl⟩, rfl, by decide⟩

theorem witness_ReceiveCommandsFrame :
    (∃ t, exec .sample falling = .next t) ∧ (1 : Nat) ≠ falling.wpos ∧ (∃ t, exec .decode busyState = .next t)
    ∧ (∃ t, exec .poll busyState = .next t) ∧ (∃ t, exec .nop busyState = .next t) :=
  ⟨⟨_, rfl⟩, by decide, ⟨_, rfl⟩, ⟨_, rfl⟩, ⟨_, rfl⟩⟩

/-- One clause each of EveryRegisterHasItsWriter: SAMPLE, DECODE, POLL, TXBIT, SYNTH, APPLY, CLK, OSC_CNT by its three
writers, OVF set and cleared, the pin, and a fault. -/
theorem witness_EveryRegisterHasItsWriter :
    reaches (step { falling with inputs := [.cmd 0x40000000#32] }) (fun t => decide (t.level ≠ falling.level))
    ∧ reaches (step { falling with pos := 2, inputs := [.cmd 0x50000000#32] }) (fun t => decide (t.bt ≠ falling.bt))
    ∧ reaches (step { falling with inputs := [.cmd 0x60000000#32] }) (fun t => decide (t.elapsed ≠ falling.elapsed))
    ∧ reaches (step { setUp vec with inputs := [.cmd 0x30000000#32] }) (fun t => decide (t.txb ≠ (setUp vec).txb))
    ∧ reaches (step { fresh vec with inputs := [.cmd 0x140008F7#32] }) (fun t => decide (t.cfgMark ≠ (fresh vec).cfgMark))
    ∧ reaches (step { setUp vec with inputs := [.cmd 0x24000000#32] }) (fun t => decide (t.oscSel ≠ (setUp vec).oscSel))
    ∧ reaches (step { fresh vec with inputs := [.clk] }) (fun t => decide (t.psc ≠ (fresh vec).psc))
    ∧ reaches (step { setUp vec with oscCnt := 46, inputs := [.cmd 0x24000000#32] }) (fun t => decide (t.oscCnt ≠ 46))
    ∧ reaches (step { setUp vec with oscCnt := 46, inputs := [.cmd 0x30000000#32] }) (fun t => decide (t.oscCnt ≠ 46))
    ∧ reaches (step busyState) (fun t => decide (t.oscCnt ≠ busyState.oscCnt) && !busyState.ovf && t.ovf)
    ∧ reaches (step { fresh vec with ovf := true, inputs := [.cmd 0x60000000#32] }) (fun t => !t.ovf)
    ∧ reaches (step { fresh vec with inputs := [.rxLevel true] }) (fun t => decide (t.rxIn ≠ (fresh vec).rxIn))
    ∧ reaches (step { fresh vec with inputs := [.cmd 0x70000000#32] }) (fun t => decide (t.halted ≠ (fresh vec).halted))
    ∧ ([.clk] : List Input).head? ≠ some .reset := by decide

theorem witness_TransmitSideIgnoresTheReceiver :
    (∃ t, exec .txbit busyState = .next t) ∧ (∃ t, exec (.apply .mark) busyState = .next t)
    ∧ (∃ t, exec (.synth .mark 2295#26) busyState = .next t) ∧ (∃ t, exec .nop busyState = .next t)
    ∧ ∃ t, clkStep busyState = .next t := ⟨⟨_, rfl⟩, ⟨_, rfl⟩, ⟨_, rfl⟩, ⟨_, rfl⟩, _, rfl⟩

theorem witness_ReceiverIgnoresTheTransmitSide :
    (∃ t, exec .sample busyState = .next t) ∧ (∃ t, exec .decode busyState = .next t)
    ∧ ∃ t, exec .poll busyState = .next t := ⟨⟨_, rfl⟩, ⟨_, rfl⟩, _, rfl⟩

theorem witness_StatusOutputsShowEveryRegister :
    Legal busyState ∧ busyState.p.txPresent = true ∧ busyState.p.busyPresent = true ∧ Legal (fresh bare)
    ∧ (fresh bare).p.busyPresent = false ∧ (fresh bare).p.txPresent = false
    ∧ Legal haltedState := ⟨busyState_legal, rfl, rfl, by decide, rfl, rfl, by decide⟩

end Sys2Proof.Tests
end

/-! ## 10_state.md: the registers, their writers, their invariants and their status outputs -/

section
/-! ### What a step runs, and which word a command is (R45, R48, R49, R54) -/

namespace Sys2Proof

theorem decodePlain_ok (w : Word) (i j : Instr) :
    decodePlain w i = .ok j ↔ (slotField w = 0#2 ∧ immField w = 0#26) ∧ i = j := by
  unfold decodePlain
  split <;> simp [*]

theorem decodeSynth_ok (w : Word) (j : Instr) :
    decodeSynth w = .ok j ↔ ∃ k, slotField w = slotCode k ∧ j = .synth k (immField w) := by
  unfold decodeSynth
  simp only [← slotOfField_some]
  rcases slotOfField (slotField w) with _ | k <;> simp [eq_comm]

theorem decodeApply_ok (w : Word) (j : Instr) :
    decodeApply w = .ok j ↔ ∃ k, slotField w = slotCode k ∧ immField w = 0#26 ∧ j = .apply k := by
  unfold decodeApply
  simp only [← slotOfField_some]
  rcases slotOfField (slotField w) with _ | k
  · simp
  · by_cases hi : immField w = 0#26 <;> simp [hi, eq_comm]

/-- A word whose operand fields are zero is its opcode alone (R54). -/
theorem word_of_plain_fields (w : Word) (op : BitVec 4) (ho : (opField w).toNat = op.toNat)
    (h : slotField w = 0#2 ∧ immField w = 0#26) : encodeFields op 0#2 0#26 = w := by
  obtain ⟨hslot, himm⟩ := h
  rw [← encodeFields_fields w, BitVec.eq_of_toNat_eq ho, hslot, himm]

/-- A word that decodes is the encoding of its command: no bit of it is free (R54). -/
theorem encode_of_decode_ok (tx : Bool) (w : Word) (i : Instr) (h : decode tx w = .ok i) : encode i = w := by
  unfold decode at h
  split at h
  case h_1 ho | h_5 ho | h_6 ho | h_7 ho =>
    obtain ⟨hf, rfl⟩ := (decodePlain_ok ..).mp h
    exact word_of_plain_fields w _ ho hf
  case h_2 ho =>
    obtain ⟨k, hk, rfl⟩ := (decodeSynth_ok ..).mp h
    have ho : opField w = 1#4 := BitVec.eq_of_toNat_eq ho
    rw [encode, ← hk, ← ho, encodeFields_fields]
  case h_3 ho =>
    obtain ⟨k, hk, hi, rfl⟩ := (decodeApply_ok ..).mp h
    have ho : opField w = 2#4 := BitVec.eq_of_toNat_eq ho
    rw [encode, ← hk, ← ho, ← hi, encodeFields_fields]
  case h_4 ho =>
    split at h
    · obtain ⟨hf, rfl⟩ := (decodePlain_ok ..).mp h
      exact word_of_plain_fields w _ ho hf
    · cases h
  case h_8 => cases h

/-- SYNTH's word decodes to it, with or without the framer (R49). -/
theorem decode_encode_synth (tx : Bool) (k : Slot) (hz : BitVec 26) :
    decode tx (encode (.synth k hz)) = .ok (.synth k hz) := by
  simp [decode, encode, decodeSynth]

/-- All 32 bits of a table word are the word (R48, R57). -/
theorem tableWord_toNat (w : Word) : tableWord 32 w.toNat = w := by
  rw [tableWord, Nat.mod_eq_of_lt w.isLt, BitVec.ofNat_toNat, BitVec.setWidth_eq]

namespace Machine

/-- A command word that is the next input is run at the state without it (R45). -/
theorem step_cmd (s : State) (w : Word) (rest : List Input) (h : s.inputs = .cmd w :: rest) :
    step s = runWord w { s with inputs := rest } := by
  simp [step, nextInput, h, runInput]

theorem step_issue (s : State) (w : Word) : step (issue s w) = runWord w s :=
  step_cmd (issue s w) w s.inputs rfl

theorem runWord_of_decode_ok (w : Word) (i : Instr) (s : State) (h : decode s.p.txPresent w = .ok i) :
    runWord w s = exec i s := by
  simp [runWord, h]

/-- Settles O7: a command word's step is its CMD step, and that of a legal word is its command's meaning. -/
theorem stepRunsTheDecodedCommand : Obligations.StepRunsTheDecodedCommand := by
  intro s w rest i hin hdec
  rw [step_cmd s w rest hin]
  exact runWord_of_decode_ok w i _ hdec

/-- Settles O9: placing a word is issuing it, since all its 32 bits are taken. -/
theorem placedWordRunsNext : Obligations.PlacedWordRunsNext := by
  intro s w
  rw [State.withFetchWord, tableWord_toNat, step_issue]

end Machine
end Sys2Proof
end

section
/-! ### The frame of every command: the registers it may write (R67, R68, R84, R97, R100, R119, R123) -/

namespace Sys2Proof.Machine

/-- A command that always completes, behind the halt gate (R133). -/
theorem unlessHalted_completes (s u t : State) :
    unlessHalted s (.next u) = .next t ↔ (s.halted = true ∧ t = s) ∨ (s.halted = false ∧ t = u) := by
  rw [unlessHalted_next]
  simp only [Host.Outcome.next.injEq, @eq_comm _ t]

theorem execNop_next (s t : State) : execNop s = .next t ↔ t = s := by
  cases hh : s.halted <;> simp [execNop, hh, eq_comm]

theorem execSynth_next (k : Slot) (hz : BitVec 26) (s t : State) :
    execSynth k hz s = .next t ↔
      (s.halted = true ∧ t = s) ∨ (s.halted = false ∧ t = synthesized s k hz) :=
  unlessHalted_completes s _ t

theorem execApply_next (k : Slot) (s t : State) :
    execApply k s = .next t ↔
      (s.halted = true ∧ t = s) ∨ (s.halted = false ∧ t = loadOscillator s (readSlot s k)) :=
  unlessHalted_completes s _ t

/-- TXBIT is ignored while halted, sends a cell, or, without the framer, is an illegal command (R78, R136). -/
theorem execTxbit_next (s t : State) :
    execTxbit s = .next t ↔
      (s.halted = true ∧ t = s)
      ∨ (s.halted = false ∧ s.p.txPresent = true
          ∧ ∃ b, currentCell s = .ok b ∧ t = advanceCell (loadOscillator s (readSlot s (slotOfBit b))))
      ∨ (s.halted = false ∧ s.p.txPresent = false ∧ t = raiseFault .illegalCommand (encode .txbit) s) := by
  unfold execTxbit
  cases htx : s.p.txPresent
  · simp [illegalCommand_next]
  · simp [unlessHalted_next, sendCell_next]

/-- SAMPLE is ignored while halted, takes one sample, or only accumulates (R86, R87, R92). -/
theorem execSample_next (s t : State) :
    execSample s = .next t ↔
      (s.halted = true ∧ t = s)
      ∨ (s.halted = false ∧ s.p.samplePeriodUs ≤ s.sacc + s.elapsed
          ∧ takeSample { s with sacc := s.sacc + s.elapsed - s.p.samplePeriodUs } = .next t)
      ∨ (s.halted = false ∧ s.sacc + s.elapsed < s.p.samplePeriodUs
          ∧ t = { s with sacc := s.sacc + s.elapsed, edge := false }) := by
  rw [execSample, unlessHalted_next, sampleTick_next, and_or_left]

theorem execDecode_next (s t : State) :
    execDecode s = .next t ↔
      (s.halted = true ∧ t = s) ∨ (s.halted = false ∧ t = writeFrame s (nextFrame s)) :=
  unlessHalted_completes s _ t

theorem execPoll_next (s t : State) :
    execPoll s = .next t ↔ (s.halted = true ∧ t = s) ∨ (s.halted = false ∧ t = polled s) :=
  unlessHalted_completes s _ t

theorem illegalCommand_frame (w : Word) (s t : State) (h : illegalCommand w s = .next t) :
    t = { s with halted := t.halted, faultCode := t.faultCode, faultCmd := t.faultCmd } := by
  rcases (illegalCommand_next w s t).mp h with ⟨-, rfl⟩ | ⟨-, rfl⟩ <;> rfl

theorem execSynth_frame (k : Slot) (hz : BitVec 26) (s t : State) (h : execSynth k hz s = .next t) :
    t = { s with cfgNone := t.cfgNone, cfgMark := t.cfgMark, cfgSpace := t.cfgSpace,
                 halted := t.halted, faultCode := t.faultCode, faultCmd := t.faultCmd } := by
  rcases (execSynth_next k hz s t).mp h with ⟨-, rfl⟩ | ⟨-, rfl⟩
  · rfl
  · rcases synthesized_cases s k hz with ⟨c, -, hw⟩ | ⟨-, hf⟩
    · rw [hw]
      cases k <;> rfl
    · rw [hf]
      rfl

theorem execApply_frame (k : Slot) (s t : State) (h : execApply k s = .next t) :
    t = { s with oscSel := t.oscSel, oscCmp := t.oscCmp, oscCnt := t.oscCnt } := by
  rcases (execApply_next k s t).mp h with ⟨-, rfl⟩ | ⟨-, rfl⟩ <;> rfl

theorem advanceCell_frame (s : State) :
    advanceCell s = { s with txi := (advanceCell s).txi, txb := (advanceCell s).txb } := by
  unfold advanceCell
  split <;> rfl

theorem execTxbit_frame (s t : State) (h : execTxbit s = .next t) (htx : s.p.txPresent = true) :
    t = { s with oscSel := t.oscSel, oscCmp := t.oscCmp, oscCnt := t.oscCnt, txi := t.txi, txb := t.txb } := by
  rcases (execTxbit_next s t).mp h with ⟨-, rfl⟩ | ⟨-, -, b, -, rfl⟩ | ⟨-, htx', -⟩
  · rfl
  · rw [advanceCell_frame]
    rfl
  · simp [htx] at htx'

/-- Without the framer TXBIT is an illegal command (R136). -/
theorem execTxbit_absent_frame (s t : State) (h : execTxbit s = .next t) (htx : s.p.txPresent = false) :
    t = { s with halted := t.halted, faultCode := t.faultCode, faultCmd := t.faultCmd } := by
  simp only [execTxbit, htx, Bool.false_eq_true, if_false] at h
  exact illegalCommand_frame _ s t h

theorem takeSample_frame (s t : State) (h : takeSample s = .next t) :
    t = { s with win := t.win, wpos := t.wpos, histLo := t.histLo, histHi := t.histHi, level := t.level,
                 edge := t.edge } := by
  obtain ⟨s1, he, rfl⟩ := (takeSample_next s t).mp h
  rw [insertNewest_eq]
  rcases (evictOldest_ok s s1).mp he with ⟨-, -, rfl⟩ | ⟨-, -, rfl⟩ <;> rfl

theorem execSample_frame (s t : State) (h : execSample s = .next t) :
    t = { s with sacc := t.sacc, win := t.win, wpos := t.wpos, histLo := t.histLo, histHi := t.histHi,
                 level := t.level, edge := t.edge } := by
  rcases (execSample_next s t).mp h with ⟨-, rfl⟩ | ⟨-, -, ht⟩ | ⟨-, -, rfl⟩
  · rfl
  · rw [takeSample_frame _ t ht]
  · rfl

theorem execDecode_frame (s t : State) (h : execDecode s = .next t) :
    t = { s with pos := t.pos, bt := t.bt, half := t.half, shift := t.shift, eventKind := t.eventKind,
                 eventData := t.eventData } := by
  rcases (execDecode_next s t).mp h with ⟨-, rfl⟩ | ⟨-, rfl⟩ <;> rfl

theorem execPoll_frame (s t : State) (h : execPoll s = .next t) :
    t = { s with elapsed := t.elapsed, ovf := t.ovf } := by
  rcases (execPoll_next s t).mp h with ⟨-, rfl⟩ | ⟨-, rfl⟩
  · rfl
  · unfold polled
    split <;> rfl

/-- POLL never sets OVF (R123). -/
theorem execPoll_ovf (s t : State) (h : execPoll s = .next t) (h0 : s.ovf = false) : t.ovf = false := by
  rcases (execPoll_next s t).mp h with ⟨-, rfl⟩ | ⟨-, rfl⟩
  · exact h0
  · simp

/-- No command writes the parameters (R144), only SAMPLE the window and its counts (R97), and only DECODE the frame's
registers (R100). -/
theorem exec_receiver_writers (i : Instr) (s t : State) (h : exec i s = .next t) :
    t.par = s.par
    ∧ (i ≠ .sample → t.win = s.win ∧ t.histLo = s.histLo ∧ t.histHi = s.histHi)
    ∧ (i ≠ .decode → t.pos = s.pos ∧ t.bt = s.bt ∧ t.half = s.half ∧ t.shift = s.shift) := by
  cases i with
  | nop => simp [(execNop_next s t).mp h]
  | synth k hz => rw [execSynth_frame k hz s t h]; simp
  | apply k => rw [execApply_frame k s t h]; simp
  | txbit =>
    cases htx : s.p.txPresent
    · rw [execTxbit_absent_frame s t h htx]; simp
    · rw [execTxbit_frame s t h htx]; simp
  | sample => rw [execSample_frame s t h]; simp
  | decode => rw [execDecode_frame s t h]; simp
  | poll => rw [execPoll_frame s t h]; simp

end Sys2Proof.Machine
end

section
/-! ### Every register has its writer (R97, R137) -/

namespace Sys2Proof.Machine

theorem clkStep_frame (s t : State) (h : clkStep s = .next t) :
    t = { s with psc := t.psc, oscCnt := t.oscCnt, toneOut := t.toneOut, tbCnt := t.tbCnt, ovf := t.ovf } := by
  obtain ⟨o, -, rfl⟩ := (clkStep_next s t).mp h
  rfl

/-- OVF is sticky under CLK (R121). -/
theorem clkStep_ovf (s t : State) (h : clkStep s = .next t) (h1 : s.ovf = true) : t.ovf = true := by
  obtain ⟨o, -, rfl⟩ := (clkStep_next s t).mp h
  simp [ovfClk, h1]

/-- Settles O57: each agent's frame leaves the registers of the others, and a command's word is its encoding. -/
theorem everyRegisterHasItsWriter : Obligations.EveryRegisterHasItsWriter := by
  intro s t h hreset
  rcases (step_next s t).mp h with ⟨hin, h⟩ | ⟨rest, hin, h⟩ | ⟨w, rest, hin, h⟩ | ⟨b, rest, hin, rfl⟩ | ⟨rest, hin, -⟩
  · have hovf := clkStep_ovf s t h
    rw [clkStep_frame s t h]
    simp +contextual [hin, hovf]
  · have hovf : s.ovf = true → t.ovf = true := clkStep_ovf { s with inputs := rest } t h
    rw [clkStep_frame _ t h]
    simp +contextual [hin, hovf]
  · rcases (runWord_next w _ t).mp h with ⟨i, hdec, h⟩ | ⟨e, -, h⟩
    · rw [← encode_of_decode_ok _ w i hdec] at hin
      cases i with
      | nop => simp +contextual [(execNop_next _ t).mp h]
      | synth k hz =>
        have hw : ∃ j x, encode (.synth k hz) = encode (.synth j x) := ⟨k, hz, rfl⟩
        rw [execSynth_frame k hz _ t h]
        simp +contextual [hin, hw]
      | apply k =>
        have hw : ∃ j, encode (.apply k) = encode (.apply j) := ⟨k, rfl⟩
        rw [execApply_frame k _ t h]
        simp +contextual [hin, hw]
      | txbit =>
        cases htx : s.p.txPresent
        · rw [execTxbit_absent_frame _ t h htx]
          simp +contextual [hin]
        · rw [execTxbit_frame _ t h htx]
          simp +contextual [hin]
      | sample =>
        rw [execSample_frame _ t h]
        simp +contextual [hin]
      | decode =>
        rw [execDecode_frame _ t h]
        simp +contextual [hin]
      | poll =>
        have hovf : s.ovf = false → t.ovf = false := execPoll_ovf { s with inputs := rest } t h
        rw [execPoll_frame _ t h]
        simp +contextual [hin, hovf]
    · rw [illegalCommand_frame w _ t h]
      simp +contextual [hin]
  · simp +contextual [hin]
  · simp [hin] at hreset

end Sys2Proof.Machine
end

section
/-! ### The histogram mirrors the window (R31) -/

namespace Sys2Proof.Machine

/-- The counts are those of the window (R31). It is part of `WindowLegal`. -/
abbrev HistogramMirrors (s : State) : Prop :=
  s.win.length = winSize s.p ∧ s.histLo + s.histHi = winSize s.p ∧ s.histHi = s.win.count true

theorem bitValue_add_not (b : Bool) : bitValue b + bitValue (!b) = 1 := by
  cases b <;> rfl

/-- One sample, register by register (R86 to R91): the bucket of the evicted sample loses it, and RX_IN's gains one. -/
theorem takeSample_registers (s t : State) (h : takeSample s = .next t) :
    ∃ old, s.win[s.wpos]? = some old
      ∧ t.win = s.win.set s.wpos s.rxIn ∧ t.wpos = (s.wpos + 1) % winSize s.p
      ∧ t.histHi + bitValue old = s.histHi + bitValue s.rxIn
      ∧ t.histLo + bitValue (!old) = s.histLo + bitValue (!s.rxIn)
      ∧ t.level = debounced s.level t.histLo t.histHi (hysteresis s.p) := by
  obtain ⟨s1, he, rfl⟩ := (takeSample_next s t).mp h
  rw [insertNewest_eq]
  rcases (evictOldest_ok s s1).mp he with ⟨hold, hb, rfl⟩ | ⟨hold, hb, rfl⟩
  · refine ⟨true, hold, rfl, rfl, ?_, rfl, rfl⟩
    change s.histHi - 1 + bitValue s.rxIn + 1 = _
    omega
  · refine ⟨false, hold, rfl, rfl, rfl, ?_, rfl⟩
    change s.histLo - 1 + bitValue (!s.rxIn) + 1 = _
    omega

theorem resetWith_histogramMirrors (par : LegalParams) (rx : Bool) (ins : List Input) :
    HistogramMirrors (State.resetWith par rx ins) := by
  refine ⟨List.length_replicate, rfl, ?_⟩
  rw [resetWith_histHi, resetWith_win, List.count_replicate]
  rfl

theorem takeSample_histogramMirrors (s t : State) (h : takeSample s = .next t) (hs : HistogramMirrors s) :
    HistogramMirrors t := by
  obtain ⟨hlen, hsum, hcnt⟩ := hs
  have hp : t.p = s.p := by rw [takeSample_frame s t h]
  obtain ⟨old, hold, hwin, -, hhi, hlo, -⟩ := takeSample_registers s t h
  have hset := count_set s.win s.wpos s.rxIn old hold
  have hold1 := bitValue_add_not old
  have hnew1 := bitValue_add_not s.rxIn
  refine ⟨?_, ?_, ?_⟩
  · rw [hwin, hp, List.length_set, hlen]
  · rw [hp]
    omega
  · rw [hwin]
    omega

theorem exec_histogramMirrors (i : Instr) (s t : State) (hs : HistogramMirrors s) (h : exec i s = .next t) :
    HistogramMirrors t := by
  by_cases hi : i = .sample
  · subst hi
    rcases (execSample_next s t).mp h with ⟨-, rfl⟩ | ⟨-, -, ht⟩ | ⟨-, -, rfl⟩
    · exact hs
    · exact takeSample_histogramMirrors _ t ht hs
    · exact hs
  · obtain ⟨hpar, hsampler, -⟩ := exec_receiver_writers i s t h
    obtain ⟨hwin, hlo, hhi⟩ := hsampler hi
    rw [HistogramMirrors, State.p, hpar, hwin, hlo, hhi]
    exact hs

/-- Settles O40: only SAMPLE writes the window, and the bit it overwrites and the bit it writes move the counts as they
move the number of ones. -/
theorem histogramMirrorsTheWindow : Obligations.HistogramMirrorsTheWindow := by
  refine ⟨fun par rx ins => ?_, fun i s t hlen hsum hcnt h => exec_histogramMirrors i s t ⟨hlen, hsum, hcnt⟩ h⟩
  obtain ⟨-, hcounts⟩ := resetWith_histogramMirrors par rx ins
  exact hcounts

end Sys2Proof.Machine
end

section
/-! ### The frame decoder's registers (R35, R36) -/

namespace Sys2Proof.Machine

@[simp] theorem clearIdle_pos (v : FrameVars) : (clearIdle v).pos = v.pos := by
  unfold clearIdle
  split <;> rfl

/-- Idle holds nothing of a frame (R110). -/
theorem clearIdle_of_idle (v : FrameVars) (h : v.pos = 0) :
    (clearIdle v).bt = 0 ∧ (clearIdle v).half = false ∧ (clearIdle v).shift = 0#8 := by
  simp [clearIdle, h]

theorem clearIdle_of_active (v : FrameVars) (h : v.pos ≠ 0) : clearIdle v = v := by
  simp [clearIdle, h]

@[simp] theorem cellMidpoint_bt (p : Params) (level : Bool) (v : FrameVars) : (cellMidpoint p level v).bt = v.bt := by
  unfold cellMidpoint
  split
  · cases level <;> simp only [startMidpoint, dataMidpoint, stopMidpoint] <;> split_ifs <;> rfl
  · rfl

/-- A timer short of two periods is below one after the full-period test of an active cell (R108). -/
theorem cellFullPeriod_bt_lt (p : Params) (v : FrameVars) (h : v.bt < 2 * p.baudUs)
    (hp : (cellFullPeriod p v).pos ≠ 0) : (cellFullPeriod p v).bt < p.baudUs := by
  unfold cellFullPeriod at hp ⊢
  by_cases hf : atFullPeriod p v.pos v.bt = true
  · rw [if_pos hf]
    change v.bt - p.baudUs < p.baudUs
    omega
  · rw [if_neg hf] at hp ⊢
    simpa [atFullPeriod, hp] using hf

theorem nextFrame_idle_clear (s : State) (hs : s.pos = 0 → s.bt = 0 ∧ s.half = false ∧ s.shift = 0#8)
    (h : (nextFrame s).pos = 0) :
    (nextFrame s).bt = 0 ∧ (nextFrame s).half = false ∧ (nextFrame s).shift = 0#8 := by
  by_cases hp : s.pos = 0
  · rw [nextFrame_idle s hp]
    unfold idleFrame
    split
    · exact ⟨rfl, rfl, rfl⟩
    · exact hs hp
  · rw [nextFrame_active s hp] at h ⊢
    rw [clearIdle_pos] at h
    exact clearIdle_of_idle _ h

/-- Settles O51: DECODE clears what Idle may not hold, and no other command writes the frame's registers. -/
theorem idleHoldsNoPartialByte : Obligations.IdleHoldsNoPartialByte := by
  refine ⟨fun par rx ins => ⟨rfl, rfl, rfl⟩, fun i s t hs h hidle => ?_⟩
  by_cases hi : i = .decode
  · subst hi
    rcases (execDecode_next s t).mp h with ⟨-, rfl⟩ | ⟨-, rfl⟩
    · exact hs hidle
    · exact nextFrame_idle_clear s hs hidle
  · obtain ⟨-, -, hdecoder⟩ := exec_receiver_writers i s t h
    obtain ⟨hpos, hbt, hhalf, hshift⟩ := hdecoder hi
    rw [hbt, hhalf, hshift]
    exact hs (hpos ▸ hidle)

/-- What legal parameters satisfy, for the parameters of a state (R6 to R13). -/
theorem State.constraints (s : State) : s.p.Constraints := (Params.valid_iff s.p).mp s.par.property

/-- A legal ELAPSED is at most a quantum, and so at most half a baud and at most a sample period (R10 to R12, R29). -/
theorem elapsed_bounds (s : State) (h : TimebaseLegal s) :
    s.elapsed ≤ s.p.quantumUs ∧ 2 * s.elapsed ≤ s.p.baudUs ∧ s.elapsed ≤ s.p.samplePeriodUs := by
  obtain ⟨-, helapsed⟩ := h
  have hbaud := s.constraints.quantum_le_halfBaud
  have hperiod := s.constraints.quantum_le_samplePeriod
  omega

theorem nextFrame_bt_lt (s : State) (hbt : s.bt < s.p.baudUs) (htb : TimebaseLegal s) :
    (nextFrame s).bt < s.p.baudUs := by
  by_cases hp : s.pos = 0
  · rw [nextFrame_idle s hp]
    unfold idleFrame
    split
    · exact Nat.zero_lt_of_lt hbt
    · exact hbt
  · rw [nextFrame_active s hp]
    obtain ⟨-, hel, -⟩ := elapsed_bounds s htb
    generalize hv : cellFullPeriod _ _ = v
    by_cases hidle : v.pos = 0
    · rw [(clearIdle_of_idle v hidle).1]
      exact Nat.zero_lt_of_lt hbt
    · rw [clearIdle_of_active v hidle]
      subst hv
      refine cellFullPeriod_bt_lt _ _ ?_ hidle
      rw [cellMidpoint_bt]
      change s.bt + s.elapsed < 2 * s.p.baudUs
      omega

/-- Settles O52: ELAPSED is at most half a baud, so BT plus ELAPSED is short of two periods, and the full-period test or the
clearing of Idle brings it below one. -/
theorem timerStaysBelowTheBaudPeriod : Obligations.TimerStaysBelowTheBaudPeriod := by
  refine ⟨fun par rx ins => ?_, fun s t hbt htb h => ?_⟩
  · have hbaud := ((Params.valid_iff par.val).mp par.property).baud_ge
    rw [resetWith_bt]
    omega
  · rcases (execDecode_next s t).mp h with ⟨-, rfl⟩ | ⟨-, rfl⟩
    · exact hbt
    · exact nextFrame_bt_lt s hbt htb

end Sys2Proof.Machine
end

section
/-! ### What keeps the legal values, operation by operation (R24 to R37, R74) -/

namespace Sys2Proof.Machine

theorem disabled_slotLegal (p : Params) : SlotLegal p ToneConfig.disabled := by
  simp [SlotLegal, ToneConfig.disabled]

theorem resetWith_legal (par : LegalParams) (rx : Bool) (ins : List Input) : Legal (State.resetWith par rx ins) := by
  have hc := (Params.valid_iff par.val).mp par.property
  have hslot := disabled_slotLegal par.val
  have hbaud : 0 < par.val.baudUs := Nat.zero_lt_of_lt hc.baud_ge
  obtain ⟨hlen, hcounts⟩ := resetWith_histogramMirrors par rx ins
  exact ⟨⟨hslot, hslot, hslot⟩,
    ⟨Nat.zero_le _, Nat.zero_le _, le_rfl, pscMod_pos _ par.property⟩,
    ⟨hc.msg_pos, Nat.zero_le _, fun _ => ⟨rfl, rfl⟩⟩,
    ⟨hc.quantumCycles_pos, .inl rfl⟩,
    ⟨hc.samplePeriod_pos, hlen, Nat.two_pow_pos _, hcounts⟩,
    ⟨nofun, fun _ => Nat.zero_le _⟩,
    ⟨Nat.zero_le _, hbaud, fun _ => ⟨rfl, rfl, rfl⟩, fun _ => hbaud, nofun, fun _ => rfl⟩,
    ⟨fun _ => rfl, fun _ => rfl⟩,
    rfl⟩

/-- A candidate that SYNTH accepts is a legal slot: its fraction is below twice the clock rate (R60, R61). -/
theorem candidate_slotLegal (p : Params) (hv : p.valid = true) (t i d : Nat) (c : ToneConfig) (ht : 1 ≤ t)
    (hd : dividerOf p i = some d) (h : candidate p t i d = some c) : SlotLegal p c := by
  obtain ⟨hclock, hcmp, rfl⟩ := (candidate_some p t i d c).mp h
  have hd1 := (dividerOf_range p hv i d hd).1
  have hclk := ((Params.valid_iff p).mp hv).clock_lt
  have hden := candidateDen_bounds p.clockHz d t hd1 ht hclock
  have hnum := candidateNum_lt p.clockHz d t hd1 ht hclock
  refine ⟨(dividerOf_le p i d hd).2, hcmp, ?_, hden.1, ?_⟩
  · change candidateNum _ _ _ _ < _
    omega
  · change candidateDen _ _ _ < _
    omega

theorem FirstBest.mem (l : List (Option ToneConfig)) (c : ToneConfig) (h : FirstBest l (some c)) : some c ∈ l := by
  obtain ⟨l1, l2, rfl, -⟩ := h
  simp

theorem candidatesFrom_slotLegal (p : Params) (hv : p.valid = true) (t : Nat) (ht : 1 ≤ t) (c : ToneConfig)
    (h : some c ∈ none :: candidatesFrom p t 1 p.dividers) : SlotLegal p c := by
  have hmem : some c ∈ candidatesFrom p t 1 p.dividers := by simpa using h
  obtain ⟨j, hj⟩ := List.mem_iff_getElem?.mp hmem
  rw [candidatesFrom_getElem?, Option.map_eq_some_iff] at hj
  obtain ⟨d, hd, hc⟩ := hj
  rw [Nat.add_comm] at hc
  exact candidate_slotLegal p hv t (j + 1) d c ht hd hc

/-- Whatever SYNTH writes is a legal slot (R24). -/
theorem synthesize_slotLegal (p : Params) (hv : p.valid = true) (t : Nat) (c : ToneConfig)
    (h : synthesize p t = some c) : SlotLegal p c := by
  unfold synthesize at h
  by_cases h0 : t = 0
  · rw [if_pos h0] at h
    cases h
    exact disabled_slotLegal p
  · rw [if_neg h0] at h
    have hlegal := candidatesFrom_slotLegal p hv t (Nat.pos_of_ne_zero h0)
    have hden : ∀ x, some x ∈ none :: candidatesFrom p t 1 p.dividers → 1 ≤ x.errDen := by
      intro x hx
      obtain ⟨-, -, -, hpos, -⟩ := hlegal x hx
      exact hpos
    have hbest := searchFrom_firstBest p t p.dividers 1 none hden
    rw [h] at hbest
    exact hlegal c (FirstBest.mem _ c hbest)

theorem writeSlot_legal (s : State) (k : Slot) (c : ToneConfig) (hL : Legal s) (hc : SlotLegal s.p c) :
    Legal (writeSlot s k c) := by
  obtain ⟨⟨hnone, hmark, hspace⟩, hrest⟩ := hL
  cases k with
  | none => exact ⟨⟨hc, hmark, hspace⟩, hrest⟩
  | mark => exact ⟨⟨hnone, hc, hspace⟩, hrest⟩
  | space => exact ⟨⟨hnone, hmark, hc⟩, hrest⟩

theorem readSlot_legal (s : State) (k : Slot) (hL : Legal s) : SlotLegal s.p (readSlot s k) := by
  obtain ⟨⟨hnone, hmark, hspace⟩, -⟩ := hL
  cases k with
  | none => exact hnone
  | mark => exact hmark
  | space => exact hspace

/-- Fault entry is legal when the word recorded explains the fault recorded (R132). -/
theorem raiseFault_legal (c : FaultCode) (w : Word) (s : State) (hL : Legal s)
    (hx : faultExplained (raiseFault c w s) = true) : Legal (raiseFault c w s) := by
  obtain ⟨hslots, hosc, hframer, htb, hwin, hlevel, hdec, hevent, -⟩ := hL
  exact ⟨hslots, hosc, hframer, htb, hwin, hlevel, hdec, hevent, hx⟩

theorem raiseFault_illegal_legal (w : Word) (e : DecodeError) (s : State) (hL : Legal s)
    (hw : decode s.p.txPresent w = .error e) : Legal (raiseFault .illegalCommand w s) :=
  raiseFault_legal _ w s hL (by simp [faultExplained, hw])

theorem synthesized_legal (s : State) (k : Slot) (hz : BitVec 26) (hL : Legal s) : Legal (synthesized s k hz) := by
  rcases synthesized_cases s k hz with ⟨c, hc, hw⟩ | ⟨hnone, hf⟩
  · rw [hw]
    exact writeSlot_legal s k c hL (synthesize_slotLegal s.p s.par.property _ c hc)
  · rw [hf]
    exact raiseFault_legal _ _ s hL (by simp [faultExplained, decode_encode_synth, hnone])

theorem loadOscillator_legal (s : State) (c : ToneConfig) (hL : Legal s) (hc : SlotLegal s.p c) :
    Legal (loadOscillator s c) := by
  obtain ⟨hslots, ⟨-, -, -, hpsc⟩, hrest⟩ := hL
  obtain ⟨hsel, hcmp, -⟩ := hc
  exact ⟨hslots, ⟨hsel, hcmp, Nat.zero_le _, hpsc⟩, hrest⟩

theorem advanceCell_legal (s : State) (hL : Legal s) (htx : s.p.txPresent = true) : Legal (advanceCell s) := by
  obtain ⟨hslots, hosc, ⟨htxi, htxb, -⟩, hrest⟩ := hL
  have hframer : FramerLegal (advanceCell s) := by
    refine ⟨?_, ?_, fun habsent => ?_⟩
    · have := Nat.mod_lt (s.txi + 1) (Nat.zero_lt_of_lt htxi)
      simp only [advanceCell_txi, advanceCell_p]
      split <;> assumption
    · simp only [advanceCell_txb]
      split <;> omega
    · simp [htx] at habsent
  rw [advanceCell_frame] at hframer ⊢
  exact ⟨hslots, hosc, hframer, hrest⟩

theorem polled_legal (s : State) (hL : Legal s) : Legal (polled s) := by
  obtain ⟨hslots, hosc, hframer, ⟨htb, -⟩, hrest⟩ := hL
  unfold polled
  split
  · exact ⟨hslots, hosc, hframer, ⟨htb, .inr rfl⟩, hrest⟩
  · exact ⟨hslots, hosc, hframer, ⟨htb, .inl rfl⟩, hrest⟩

/-- The level that the counts leave never stands against a majority of more than H (R90). -/
theorem debounced_levelLegal (level : Bool) (lo hi h : Nat) :
    (debounced level lo hi h = true → lo ≤ hi + h) ∧ (debounced level lo hi h = false → hi ≤ lo + h) := by
  cases level <;> simp only [debounced] <;> split_ifs <;> simp <;> omega

theorem takeSample_legal (s t : State) (hL : Legal s) (h : takeSample s = .next t) : Legal t := by
  obtain ⟨hslots, hosc, hframer, htb, ⟨hsacc, hlen, hwpos, hsum, hcnt⟩, -, hrest⟩ := hL
  obtain ⟨old, -, -, htwpos, -, -, htlevel⟩ := takeSample_registers s t h
  obtain ⟨htlen, htsum, htcnt⟩ := takeSample_histogramMirrors s t h ⟨hlen, hsum, hcnt⟩
  have htw : t.wpos < winSize s.p := by
    rw [htwpos]
    exact Nat.mod_lt _ (Nat.zero_lt_of_lt hwpos)
  have hp : t.p = s.p := by rw [takeSample_frame s t h]
  have hlevel : LevelLegal t := by
    rw [LevelLegal, htlevel, hp]
    exact debounced_levelLegal s.level t.histLo t.histHi (hysteresis s.p)
  rw [takeSample_frame s t h] at htlen htsum hlevel ⊢
  exact ⟨hslots, hosc, hframer, htb, ⟨hsacc, htlen, htw, htsum, htcnt⟩, hlevel, hrest⟩

theorem execSample_legal (s t : State) (hL : Legal s) (h : execSample s = .next t) : Legal t := by
  obtain ⟨hslots, hosc, hframer, htb, ⟨hsacc, hwin⟩, hrest⟩ := hL
  obtain ⟨-, -, hel⟩ := elapsed_bounds s htb
  rcases (execSample_next s t).mp h with ⟨-, rfl⟩ | ⟨-, hcross, ht⟩ | ⟨-, hshort, rfl⟩
  · exact ⟨hslots, hosc, hframer, htb, ⟨hsacc, hwin⟩, hrest⟩
  · have hacc : s.sacc + s.elapsed - s.p.samplePeriodUs < s.p.samplePeriodUs := by omega
    refine takeSample_legal _ t ?_ ht
    exact ⟨hslots, hosc, hframer, htb, ⟨hacc, hwin⟩, hrest⟩
  · exact ⟨hslots, hosc, hframer, htb, ⟨hshort, hwin⟩, hrest⟩

/-- Frame registers that a DECODE without an event leaves in an active state are legal when the timer and HALF agree. -/
theorem writeFrame_active_legal (s : State) (pos bt : Nat) (half : Bool) (shift : Byte) (h0 : pos ≠ 0) (h10 : pos ≤ 10)
    (hbt : bt < s.p.baudUs) (hbefore : half = false → 2 * bt < s.p.baudUs)
    (hafter : half = true → s.p.baudUs ≤ 2 * bt) (hstop : pos = 10 → half = false) :
    DecoderLegal (writeFrame s ⟨pos, bt, half, shift, .noEvent, 0#8⟩)
    ∧ EventLegal (writeFrame s ⟨pos, bt, half, shift, .noEvent, 0#8⟩) :=
  ⟨⟨h10, hbt, fun h => absurd h h0, hbefore, hafter, hstop⟩, fun _ => rfl, fun h => absurd rfl h⟩

/-- Idle with its registers cleared is legal after any event; only a decoded byte has data (R110, R111). -/
theorem writeFrame_idle_legal (s : State) (kind : EventKind) (data : Byte)
    (hdata : kind ≠ .byteDecoded → data = 0#8) :
    DecoderLegal (writeFrame s ⟨0, 0, false, 0#8, kind, data⟩)
    ∧ EventLegal (writeFrame s ⟨0, 0, false, 0#8, kind, data⟩) := by
  have hbaud : 0 < s.p.baudUs := Nat.zero_lt_of_lt s.constraints.baud_ge
  exact ⟨⟨Nat.zero_le _, hbaud, fun _ => ⟨rfl, rfl, rfl⟩, fun _ => hbaud, nofun, fun _ => rfl⟩, hdata, fun _ => rfl⟩

/-- At a midpoint the cell decides: an error or the stop cell ends the frame, else HALF is set (R105 to R107). -/
theorem activeFrame_midpoint_legal (s : State) (hp : s.pos ≠ 0) (h10 : s.pos ≤ 10) (hhalf : s.half = false)
    (hmid : s.p.baudUs ≤ 2 * (s.bt + s.elapsed)) (hfull : s.bt + s.elapsed < s.p.baudUs) :
    DecoderLegal (writeFrame s (activeFrame s)) ∧ EventLegal (writeFrame s (activeFrame s)) := by
  by_cases h1 : s.pos = 1
  · cases hlevel : s.level
    · rw [activeFrame_start s h1 hhalf hmid hfull hlevel]
      exact writeFrame_active_legal s 1 _ true _ (by omega) (by omega) hfull nofun (fun _ => hmid) (by omega)
    · rw [activeFrame_startError s h1 hhalf hmid hlevel]
      exact writeFrame_idle_legal s _ _ fun _ => rfl
  · by_cases h9 : s.pos ≤ 9
    · rw [activeFrame_data s (by omega) h9 hhalf hmid hfull]
      exact writeFrame_active_legal s _ _ true _ hp h10 hfull nofun (fun _ => hmid) (by omega)
    · rw [activeFrame_stop s (by omega) hhalf hmid]
      refine writeFrame_idle_legal s _ _ ?_
      cases s.level <;> simp

/-- An active DECODE leaves legal frame registers and a legal event (R103 to R110). -/
theorem activeFrame_legal (s : State) (hd : DecoderLegal s) (htb : TimebaseLegal s) (hp : s.pos ≠ 0) :
    DecoderLegal (writeFrame s (activeFrame s)) ∧ EventLegal (writeFrame s (activeFrame s)) := by
  obtain ⟨h10, hbt, -, hbefore, hafter, hstop⟩ := hd
  obtain ⟨-, hel, -⟩ := elapsed_bounds s htb
  cases hhalf : s.half with
  | true =>
    have hafter := hafter hhalf
    have hpos : s.pos ≠ 10 := fun h => by simp [hstop h] at hhalf
    by_cases hfull : s.p.baudUs ≤ s.bt + s.elapsed
    · rw [activeFrame_full s hp (.inl hhalf) hfull]
      exact writeFrame_active_legal s _ _ false _ (by omega) (by omega) (by omega) (fun _ => by omega) nofun
        (fun _ => rfl)
    · rw [activeFrame_between s hp (.inl hhalf) (by omega), hhalf]
      exact writeFrame_active_legal s _ _ true _ hp h10 (by omega) nofun (fun _ => by omega) (by omega)
  | false =>
    have hbefore := hbefore hhalf
    by_cases hmid : s.p.baudUs ≤ 2 * (s.bt + s.elapsed)
    · exact activeFrame_midpoint_legal s hp h10 hhalf hmid (by omega)
    · rw [activeFrame_between s hp (.inr (by omega)) (by omega), hhalf]
      exact writeFrame_active_legal s _ _ false _ hp h10 (by omega) (fun _ => by omega) nofun (fun _ => rfl)

/-- An idle DECODE starts a frame with a zero timer, or reports no event and stays in Idle (R102). -/
theorem idleFrame_legal (s : State) (hd : DecoderLegal s) (hp : s.pos = 0) :
    DecoderLegal (writeFrame s (idleFrame s)) ∧ EventLegal (writeFrame s (idleFrame s)) := by
  obtain ⟨-, hbt, hidle, -⟩ := hd
  obtain ⟨hbt0, hhalf, hshift⟩ := hidle hp
  unfold idleFrame
  split
  · have hbaud : 0 < s.p.baudUs := Nat.zero_lt_of_lt hbt
    exact writeFrame_active_legal s 1 0 false _ (by omega) (by omega) hbaud (fun _ => hbaud) nofun (fun _ => rfl)
  · rw [hp, hbt0, hhalf, hshift]
    exact writeFrame_idle_legal s _ _ fun _ => rfl

theorem execDecode_legal (s t : State) (hL : Legal s) (h : execDecode s = .next t) : Legal t := by
  rcases (execDecode_next s t).mp h with ⟨-, rfl⟩ | ⟨-, rfl⟩
  · exact hL
  obtain ⟨hslots, hosc, hframer, htb, hwin, hlevel, hd, -, hfault⟩ := hL
  have hframe : DecoderLegal (writeFrame s (nextFrame s)) ∧ EventLegal (writeFrame s (nextFrame s)) := by
    by_cases hp : s.pos = 0
    · rw [nextFrame_idle s hp]
      exact idleFrame_legal s hd hp
    · rw [nextFrame, if_neg hp]
      exact activeFrame_legal s hd htb hp
  obtain ⟨hd, hevent⟩ := hframe
  exact ⟨hslots, hosc, hframer, htb, hwin, hlevel, hd, hevent, hfault⟩

end Sys2Proof.Machine
end

section
/-! ### Every step keeps the invariant -/

namespace Sys2Proof.Machine

theorem illegalCommand_legal (w : Word) (e : DecodeError) (s t : State) (hL : Legal s)
    (hw : decode s.p.txPresent w = .error e) (h : illegalCommand w s = .next t) : Legal t := by
  rcases (illegalCommand_next w s t).mp h with ⟨-, rfl⟩ | ⟨-, rfl⟩
  · exact hL
  · exact raiseFault_illegal_legal w e s hL hw

/-- A command that always completes is legal when what it leaves is: halted, it leaves the state as it was. -/
theorem unlessHalted_legal (s u t : State) (hL : Legal s) (hu : Legal u) (h : unlessHalted s (.next u) = .next t) :
    Legal t := by
  rcases (unlessHalted_completes s u t).mp h with ⟨-, rfl⟩ | ⟨-, rfl⟩
  · exact hL
  · exact hu

/-- Without the framer TXBIT's own word is an illegal one (R136). -/
theorem decode_encode_txbit_absent : decode false (encode .txbit) = .error .unitAbsent := by
  decide

theorem execTxbit_legal (s t : State) (hL : Legal s) (h : execTxbit s = .next t) : Legal t := by
  rcases (execTxbit_next s t).mp h with ⟨-, rfl⟩ | ⟨-, htx, b, -, rfl⟩ | ⟨-, htx, rfl⟩
  · exact hL
  · exact advanceCell_legal _ (loadOscillator_legal s _ hL (readSlot_legal s _ hL)) htx
  · exact raiseFault_illegal_legal _ _ s hL (by rw [htx]; exact decode_encode_txbit_absent)

theorem exec_legal (i : Instr) (s t : State) (hL : Legal s) (h : exec i s = .next t) : Legal t := by
  cases i with
  | nop => exact (execNop_next s t).mp h ▸ hL
  | synth k hz => exact unlessHalted_legal s _ t hL (synthesized_legal s k hz hL) h
  | apply k => exact unlessHalted_legal s _ t hL (loadOscillator_legal s _ hL (readSlot_legal s k hL)) h
  | txbit => exact execTxbit_legal s t hL h
  | sample => exact execSample_legal s t hL h
  | decode => exact execDecode_legal s t hL h
  | poll => exact unlessHalted_legal s _ t hL (polled_legal s hL) h

theorem runWord_legal (w : Word) (s t : State) (hL : Legal s) (h : runWord w s = .next t) : Legal t := by
  rcases (runWord_next w s t).mp h with ⟨i, -, h⟩ | ⟨e, hw, h⟩
  · exact exec_legal i s t hL h
  · exact illegalCommand_legal w e s t hL hw h

/-- The oscillator counter stays at most OSC_CMP: it clears on a match and else counts by one (R70, R74). -/
theorem oscTick_cnt_le (s : State) (h : s.oscCnt ≤ s.oscCmp) : (oscTick s).cnt ≤ s.oscCmp := by
  unfold oscTick
  split
  · exact Nat.zero_le _
  · have := Nat.mod_le (s.oscCnt + 1) (2 ^ s.p.oscW)
    change (s.oscCnt + 1) % 2 ^ s.p.oscW ≤ s.oscCmp
    omega

theorem tbCntClk_lt (s : State) (h : s.tbCnt < s.p.quantumCycles) : tbCntClk s < s.p.quantumCycles := by
  unfold tbCntClk
  by_cases hw : s.tbCnt = s.p.quantumCycles - 1
  · rw [tbWraps, decide_eq_true hw, if_pos rfl]
    omega
  · rw [tbWraps, decide_eq_false hw, if_neg Bool.false_ne_true]
    omega

theorem clkStep_legal (s t : State) (hL : Legal s) (h : clkStep s = .next t) : Legal t := by
  obtain ⟨hslots, ⟨hsel, hcmp, hcnt, -⟩, hframer, ⟨htb, hel⟩, hrest⟩ := hL
  obtain ⟨o, ho, rfl⟩ := (clkStep_next s t).mp h
  have hcnt' : o.cnt ≤ s.oscCmp := by
    rcases (oscClk_ok s o).mp ho with ⟨-, rfl⟩ | ⟨d, -, -, rfl⟩ | ⟨d, -, -, rfl⟩
    · exact hcnt
    · exact oscTick_cnt_le s hcnt
    · exact hcnt
  have hpsc : pscClk s < pscMod s.p := Nat.mod_lt _ (pscMod_pos s.p s.par.property)
  exact ⟨hslots, ⟨hsel, hcmp, hcnt', hpsc⟩, hframer, ⟨tbCntClk_lt s htb, hel⟩, hrest⟩

/-- Settles O15: the invariant speaks of neither the inputs to come nor RX_IN, so it is each agent's own lemma. -/
theorem everyStepKeepsTheInvariant : Obligations.EveryStepKeepsTheInvariant := by
  intro s t hL h
  rcases (step_next s t).mp h with ⟨-, h⟩ | ⟨rest, -, h⟩ | ⟨w, rest, -, h⟩ | ⟨b, rest, -, rfl⟩ | ⟨rest, -, rfl⟩
  · exact clkStep_legal s t hL h
  · exact clkStep_legal { s with inputs := rest } t hL h
  · exact runWord_legal w { s with inputs := rest } t hL h
  · exact hL
  · exact resetWith_legal s.par s.rxIn rest

end Sys2Proof.Machine
end

section
/-! ### The status outputs (R26) -/

namespace Sys2Proof.Machine

theorem toNat_ofNat_of_lt (w n : Nat) (h : n < 2 ^ w) : (BitVec.ofNat w n).toNat = n := by
  rw [BitVec.toNat_ofNat, Nat.mod_eq_of_lt h]

theorem ofBool_eq_one (b : Bool) : BitVec.ofBool b = 1#1 ↔ b = true := by
  cases b <;> decide

/-- OSC_W bits hold every legal compare value (R8). -/
theorem cmp_fits (p : Params) (hc : p.Constraints) (n : Nat) (h : n ≤ p.maxCmp) : n < 2 ^ p.oscW := by
  have hmax := hc.maxCmp_le
  have hpow := Nat.two_pow_pos p.oscW
  omega

theorem slotStatus_shows (p : Params) (hc : p.Constraints) (c : ToneConfig) (h : SlotLegal p c) :
    SlotShown (slotStatus p.oscW c) c := by
  obtain ⟨hsel, hcmp, hnum, -, hden⟩ := h
  have hk : numDividers p ≤ 7 := hc.dividers_le
  exact ⟨toNat_ofNat_of_lt _ _ (by omega), toNat_ofNat_of_lt _ _ (cmp_fits p hc _ hcmp),
    toNat_ofNat_of_lt _ _ hnum, toNat_ofNat_of_lt _ _ hden⟩

/-- EVENT_KIND's codes are distinct (R33). -/
theorem eventCode_injective : Function.Injective eventCode := by
  intro a b
  cases a <;> cases b <;> simp [eventCode]

theorem faultBits_injective : Function.Injective faultBits := by
  intro a b
  cases a <;> cases b <;> simp [faultBits]

theorem faultBits_ne_three (c : FaultCode) : faultBits c ≠ 3#2 := by
  cases c <;> decide

/-- Settles O60: a legal value is below two to the power of its output's width, and the codes are distinct. -/
theorem statusOutputsShowEveryRegister : Obligations.StatusOutputsShowEveryRegister := by
  intro s hL
  have hc := s.constraints
  obtain ⟨⟨hnone, hmark, hspace⟩, ⟨hsel, hcmp, hcnt, -⟩, ⟨htxi, htxb, -⟩, htb, ⟨hsacc, -, hwpos, hsum, -⟩, -,
    ⟨hpos, hbt, -⟩, -, -⟩ := hL
  obtain ⟨hel, -⟩ := elapsed_bounds s htb
  obtain ⟨htb, -⟩ := htb
  have hk : numDividers s.p ≤ 7 := hc.dividers_le
  have hmsg : msgLen s.p ≤ 65536 := hc.msg_le
  have hwin : winSize s.p < 2 ^ (s.p.winLog + 1) := Nat.pow_lt_pow_right (by omega) (by omega)
  have hcycles := hc.quantumCycles_lt
  have hperiod := hc.samplePeriod_lt
  have hquantum := hc.quantum_le_samplePeriod
  have hbaud := hc.baud_lt
  refine ⟨slotStatus_shows s.p hc _ hnone, slotStatus_shows s.p hc _ hmark, slotStatus_shows s.p hc _ hspace,
    toNat_ofNat_of_lt 3 _ (by omega), toNat_ofNat_of_lt _ _ (cmp_fits s.p hc _ hcmp),
    toNat_ofNat_of_lt _ _ (cmp_fits s.p hc _ (hcnt.trans hcmp)), rfl,
    ofBool_eq_one _, rfl, ?framer, ?noFramer,
    toNat_ofNat_of_lt 32 _ (by omega), ofBool_eq_one _, toNat_ofNat_of_lt 32 _ (by omega),
    toNat_ofNat_of_lt 32 _ (by omega), rfl,
    toNat_ofNat_of_lt _ _ hwpos, toNat_ofNat_of_lt _ _ (by omega), toNat_ofNat_of_lt _ _ (by omega),
    ofBool_eq_one _, ofBool_eq_one _,
    toNat_ofNat_of_lt 4 _ (by omega), toNat_ofNat_of_lt 32 _ (by omega), ofBool_eq_one _, rfl,
    eventCode_injective.eq_iff (b := .noEvent), eventCode_injective.eq_iff (b := .startBitError),
    eventCode_injective.eq_iff (b := .stopBitError), eventCode_injective.eq_iff (b := .byteDecoded), rfl,
    ofBool_eq_one _,
    faultBits_injective.eq_iff (b := .none), faultBits_injective.eq_iff (b := .configUnreachable),
    faultBits_injective.eq_iff (b := .illegalCommand), faultBits_ne_three _, rfl, ?busy, ?noBusy⟩
  case framer =>
    intro htx
    exact ⟨_, if_pos htx, toNat_ofNat_of_lt 16 _ (by omega), toNat_ofNat_of_lt 4 _ (by omega)⟩
  case noFramer =>
    intro htx
    exact if_neg (by simp [htx])
  case busy =>
    intro hbusy
    exact if_pos hbusy
  case noBusy =>
    intro hbusy
    exact if_neg (by simp [hbusy])

end Sys2Proof.Machine
end

/-! ## 20_memory.md: the command stream, atomic steps and their order -/

section
/-! ### The step of every input (R43, R45) -/

namespace Sys2Proof.Machine

/-- The first input of the list is the next step's, at the state without it (R45). -/
theorem step_cons (s : State) (i : Input) (rest : List Input) (h : s.inputs = i :: rest) :
    step s = runInput i { s with inputs := rest } := by
  simp [step, nextInput, h]

/-- When the outside does nothing the clock runs on (R147). -/
theorem step_nil (s : State) (h : s.inputs = []) : step s = clkStep s := by
  simp [step, nextInput, h, runInput]

theorem runWord_of_decode_error (w : Word) (e : DecodeError) (s : State) (h : decode s.p.txPresent w = .error e) :
    runWord w s = illegalCommand w s := by
  simp [runWord, h]

/-- Settles O8: each input's step is what its agent does, and a word that does not decode is an illegal command. -/
theorem stepOfEveryOtherInput : Obligations.StepOfEveryOtherInput := by
  refine fun s rest => ⟨step_cons s .clk rest, step_nil s, fun b => step_cons s (.rxLevel b) rest,
    step_cons s .reset rest, fun w e hin hdec => ?_⟩
  rw [step_cmd s w rest hin]
  exact runWord_of_decode_error w e _ hdec

end Sys2Proof.Machine
end

section
/-! ### Every step from a legal state completes (R42, R43, R93) -/

namespace Sys2Proof.Machine

/-- A legal window has a sample to evict, and its bucket is not empty (R31, R93). -/
theorem evictOldest_completes (s : State) (hW : WindowLegal s) : ∃ t, evictOldest s = .ok t := by
  obtain ⟨old, hold⟩ := oldest_exists s hW
  obtain ⟨hhi, hlo⟩ := evicted_bucket_pos s old hW hold
  cases old with
  | true => exact ⟨_, (evictOldest_ok s _).mpr (.inl ⟨hold, Nat.one_le_iff_ne_zero.mp hhi, rfl⟩)⟩
  | false => exact ⟨_, (evictOldest_ok s _).mpr (.inr ⟨hold, Nat.one_le_iff_ne_zero.mp hlo, rfl⟩)⟩

theorem takeSample_completes (s : State) (hW : WindowLegal s) : ∃ t, takeSample s = .next t := by
  obtain ⟨s1, hs1⟩ := evictOldest_completes s hW
  exact ⟨_, (takeSample_next s _).mpr ⟨s1, hs1, rfl⟩⟩

/-- A crossing leaves less than a period, so the window the sample is taken from is legal too (R87). -/
theorem sampleTick_completes (s : State) (hW : WindowLegal s) (htb : TimebaseLegal s) :
    ∃ t, sampleTick s = .next t := by
  by_cases hcross : s.p.samplePeriodUs ≤ s.sacc + s.elapsed
  · obtain ⟨hsacc, hwin⟩ := hW
    obtain ⟨-, -, hel⟩ := elapsed_bounds s htb
    have hrem : s.sacc + s.elapsed - s.p.samplePeriodUs < s.p.samplePeriodUs := by omega
    obtain ⟨t, ht⟩ := takeSample_completes { s with sacc := s.sacc + s.elapsed - s.p.samplePeriodUs } ⟨hrem, hwin⟩
    exact ⟨t, (sampleTick_next s t).mpr (.inl ⟨hcross, ht⟩)⟩
  · exact ⟨_, (sampleTick_next s _).mpr (.inr ⟨Nat.lt_of_not_le hcross, rfl⟩)⟩

/-- A legal framer stands at a cell of a frame and at a byte of the message (R28, R78). -/
theorem currentCell_completes (s : State) (hF : FramerLegal s) : ∃ b, currentCell s = .ok b := by
  obtain ⟨htxi, htxb, -⟩ := hF
  by_cases h0 : s.txb = 0
  · exact ⟨false, (currentCell_ok s _).mpr (.inl ⟨h0, rfl⟩)⟩
  by_cases h9 : s.txb = 9
  · exact ⟨true, (currentCell_ok s _).mpr (.inr (.inl ⟨h9, rfl⟩))⟩
  · have hbyte : s.p.msg[s.txi]? = some (s.p.msg[s.txi]'htxi) := List.getElem?_eq_getElem htxi
    exact ⟨_, (currentCell_ok s _).mpr (.inr (.inr ⟨by omega, by omega, _, hbyte, rfl⟩))⟩

theorem sendCell_completes (s : State) (hF : FramerLegal s) : ∃ t, sendCell s = .next t := by
  obtain ⟨b, hb⟩ := currentCell_completes s hF
  exact ⟨_, (sendCell_next s _).mpr ⟨b, hb, rfl⟩⟩

/-- Behind the halt gate a command completes when its own part does (R133). -/
theorem unlessHalted_of_completes (s : State) (r : Result) (h : ∃ t, r = .next t) :
    ∃ t, unlessHalted s r = .next t := by
  obtain ⟨t, rfl⟩ := h
  cases hh : s.halted
  · exact ⟨t, unlessHalted_running s _ hh⟩
  · exact ⟨s, unlessHalted_halted s _ hh⟩

theorem illegalCommand_completes (w : Word) (s : State) : ∃ t, illegalCommand w s = .next t :=
  unlessHalted_of_completes s _ ⟨_, rfl⟩

theorem execTxbit_completes (s : State) (hF : FramerLegal s) : ∃ t, execTxbit s = .next t := by
  unfold execTxbit
  split
  · exact unlessHalted_of_completes s _ (sendCell_completes s hF)
  · exact illegalCommand_completes _ s

/-- Only TXBIT and SAMPLE ask anything of the state: a cell to send and a sample to evict. -/
theorem exec_completes (i : Instr) (s : State) (hL : Legal s) : ∃ t, exec i s = .next t := by
  cases i with
  | txbit =>
    obtain ⟨-, -, hframer, -⟩ := hL
    exact execTxbit_completes s hframer
  | sample =>
    obtain ⟨-, -, -, htb, hwin, -⟩ := hL
    exact unlessHalted_of_completes s _ (sampleTick_completes s hwin htb)
  | nop | synth | apply | decode | poll => exact unlessHalted_of_completes s _ ⟨_, rfl⟩

theorem runWord_completes (w : Word) (s : State) (hL : Legal s) : ∃ t, runWord w s = .next t := by
  cases hdec : decode s.p.txPresent w with
  | ok i =>
    rw [runWord_of_decode_ok w i s hdec]
    exact exec_completes i s hL
  | error e =>
    rw [runWord_of_decode_error w e s hdec]
    exact illegalCommand_completes w s

/-- A legal OSC_SEL is 0 or names a divider, so a CLK step completes (R27, R71). -/
theorem clkStep_completes (s : State) (hO : OscillatorLegal s) : ∃ t, clkStep s = .next t := by
  obtain ⟨hsel, -⟩ := hO
  obtain ⟨o, ho⟩ := oscClk_completes s hsel
  exact ⟨_, (clkStep_next s _).mpr ⟨o, ho, rfl⟩⟩

theorem runInput_completes (i : Input) (s : State) (hL : Legal s) : ∃ t, runInput i s = .next t := by
  cases i with
  | clk =>
    obtain ⟨-, hosc, -⟩ := hL
    exact clkStep_completes s hosc
  | cmd w => exact runWord_completes w s hL
  | rxLevel b => exact ⟨_, rfl⟩
  | reset => exact ⟨_, rfl⟩

/-- The invariant does not speak of the inputs to come. -/
theorem nextInput_legal (s : State) (hL : Legal s) : Legal (nextInput s).2 := by
  unfold nextInput
  split <;> exact hL

/-- Settles O16: the state without the next input is legal too, and from it every agent's step completes. -/
theorem everyLegalStepCompletes : Obligations.EveryLegalStepCompletes :=
  fun s hL => runInput_completes (nextInput s).1 (nextInput s).2 (nextInput_legal s hL)

end Sys2Proof.Machine
end

section
/-! ### POLL against an overflow (R45, R120, R123) -/

namespace Sys2Proof.Machine

theorem runInputs_cons (i : Input) (rest : List Input) (s t : State) (h : runInput i s = .next t) :
    runInputs (i :: rest) s = runInputs rest t := by
  simp [runInputs, h]

/-- Two steps, one after the other. -/
theorem runInputs_pair (i j : Input) (s t u : State) (hi : runInput i s = .next t) (hj : runInput j t = .next u) :
    runInputs [i, j] s = .next u := by
  rw [runInputs_cons i _ s t hi, runInputs_cons j _ t u hj, runInputs]

theorem runWord_poll (s : State) (h : s.halted = false) : runWord 0x60000000#32 s = .next (polled s) := by
  have hdec : decode s.p.txPresent 0x60000000#32 = .ok .poll := by cases s.p.txPresent <;> decide
  rw [runWord_of_decode_ok _ .poll s hdec]
  exact unlessHalted_running s _ h

/-- At the last count of a quantum a CLK step overflows (R120). -/
theorem clkStep_overflows (s t : State) (h : clkStep s = .next t) (hlast : s.tbCnt = s.p.quantumCycles - 1) :
    t.ovf = true := by
  obtain ⟨o, -, rfl⟩ := (clkStep_next s t).mp h
  simp [ovfClk, tbWraps, hlast]

/-- Settles O22: the CLK step overflows in both orders; a POLL after it takes the quantum, and one before it finds none
and leaves the overflow to the next. -/
theorem pollAgainstOverflowByOrder : Obligations.PollAgainstOverflowByOrder := by
  intro s hL hrun hovf hlast
  constructor
  case left =>
    obtain ⟨t, ht⟩ := runInput_completes .clk s hL
    have htovf : t.ovf = true := clkStep_overflows s t ht hlast
    have hframe := clkStep_frame s t ht
    have hpoll := runWord_poll t (by rw [hframe]; exact hrun)
    refine ⟨polled t, runInputs_pair .clk (.cmd _) s t _ ht hpoll, ?_, polled_ovf t⟩
    rw [polled_elapsed, htovf, if_pos rfl, hframe]
  case right =>
    obtain ⟨t, ht⟩ := runInput_completes .clk (polled s) (polled_legal s hL)
    have htovf : t.ovf = true := clkStep_overflows (polled s) t ht (by simpa using hlast)
    refine ⟨t, runInputs_pair (.cmd _) .clk s _ t (runWord_poll s hrun) ht, ?_, htovf⟩
    rw [clkStep_frame _ t ht]
    simp [hovf]

end Sys2Proof.Machine
end

/-! ## 30_encoding.md: the command word, the opcode map and the illegal words -/

section
/-! ### Decoding and encoding are inverse (R48, R49, R51, R52, R54) -/

namespace Sys2Proof

/-- The two operand fields that R54 requires to be zero are zero in an opcode alone. -/
theorem decodePlain_encodeFields (op : BitVec 4) (i : Instr) : decodePlain (encodeFields op 0#2 0#26) i = .ok i := by
  simp [decodePlain]

/-- APPLY's word decodes to it, with or without the framer (R49). -/
theorem decode_encode_apply (tx : Bool) (k : Slot) : decode tx (encode (.apply k)) = .ok (.apply k) := by
  simp [decode, encode, decodeApply]

/-- Settles O1: the commands without operands are their opcode alone, TXBIT's framer is present, and SYNTH and APPLY
read their own operands back. -/
theorem decodeOfEncodeIsTheCommand : Obligations.DecodeOfEncodeIsTheCommand := by
  intro tx i hwf
  cases i with
  | nop | sample | decode | poll => simp [decode, encode, decodePlain_encodeFields]
  | synth k hz => exact decode_encode_synth tx k hz
  | apply k => exact decode_encode_apply tx k
  | txbit =>
    have htx : tx = true := hwf
    simp [decode, encode, decodePlain_encodeFields, htx]

/-- Only TXBIT can be ill-formed, and without the framer its word does not decode (R136). -/
theorem wellFormed_of_decode_ok (tx : Bool) (w : Word) (i : Instr) (h : decode tx w = .ok i) :
    i.wellFormed tx = true := by
  cases i with
  | nop | synth | apply | sample | decode | poll => rfl
  | txbit =>
    cases tx with
    | true => rfl
    | false =>
      rw [← encode_of_decode_ok false w _ h, Machine.decode_encode_txbit_absent] at h
      cases h

/-- Settles O2: no bit of a legal word is free, and what decodes is well formed. -/
theorem encodeOfDecodeIsTheWord : Obligations.EncodeOfDecodeIsTheWord :=
  fun tx w i h => ⟨encode_of_decode_ok tx w i h, wellFormed_of_decode_ok tx w i h⟩

/-- The decoder said once: the legal words are the encodings of the well-formed commands. -/
theorem decode_ok_iff (tx : Bool) (w : Word) (i : Instr) :
    decode tx w = .ok i ↔ encode i = w ∧ i.wellFormed tx = true := by
  constructor
  · exact encodeOfDecodeIsTheWord tx w i
  · rintro ⟨rfl, hwf⟩
    exact decodeOfEncodeIsTheCommand tx i hwf

/-- Settles O6: each word is the encoding of its command, and a pseudo-command's words are those of its expansion. -/
theorem wordsOfTheEncodingTable : Obligations.WordsOfTheEncodingTable := by
  have hdec (w : Word) (i : Instr) (hw : encode i = w) (hwf : i.wellFormed true = true) : decode true w = .ok i :=
    (decode_ok_iff true w i).mpr ⟨hw, hwf⟩
  exact ⟨hdec _ _ rfl rfl, hdec _ _ rfl rfl, hdec _ _ rfl rfl, hdec _ _ rfl rfl, hdec _ _ rfl rfl, hdec _ _ rfl rfl,
    hdec _ _ rfl rfl, rfl, rfl, rfl⟩

end Sys2Proof
end

section
/-! ### The opcode map (R49) -/

namespace Sys2Proof

theorem encodeFields_inj (op op' : BitVec 4) (k k' : BitVec 2) (imm imm' : BitVec 26) :
    encodeFields op k imm = encodeFields op' k' imm' ↔ op = op' ∧ k = k' ∧ imm = imm' := by
  constructor
  · intro h
    exact ⟨by simpa using congrArg opField h, by simpa using congrArg slotField h, by simpa using congrArg immField h⟩
  · rintro ⟨rfl, rfl, rfl⟩
    rfl

/-- A mask applies field by field (R48, R49). -/
theorem and_encodeFields (w : Word) (op : BitVec 4) (k : BitVec 2) (imm : BitVec 26) :
    w &&& encodeFields op k imm = encodeFields (opField w &&& op) (slotField w &&& k) (immField w &&& imm) := by
  conv_lhs => rw [← encodeFields_fields w]
  change (opField w ++ slotField w ++ immField w) &&& (op ++ k ++ imm) = _
  rw [BitVec.and_append, BitVec.and_append]
  rfl

/-- Every SLOT but 3 names a slot (R51). -/
theorem slot_of_ne_three (w : Word) (h : slotField w ≠ 3#2) : ∃ k, slotField w = slotCode k := by
  rcases hk : slotOfField (slotField w) with _ | k
  · exact absurd ((slotOfField_none _).mp hk) h
  · exact ⟨k, (slotOfField_some _ _).mp hk⟩

/-- SYNTH's mask leaves the opcode (R49). -/
theorem synth_of_mask (w : Word) (hm : w &&& 0xF0000000#32 = 0x10000000#32) (h3 : slotField w ≠ 3#2) :
    ∃ k, encode (.synth k (immField w)) = w := by
  have hfields : w &&& encodeFields 0xF#4 0#2 0#26 = encodeFields 1#4 0#2 0#26 := hm
  rw [and_encodeFields, encodeFields_inj] at hfields
  obtain ⟨hop, -, -⟩ := hfields
  have hop : opField w = 1#4 := (BitVec.and_allOnes (x := opField w)).symm.trans hop
  obtain ⟨k, hk⟩ := slot_of_ne_three w h3
  exact ⟨k, by rw [encode, ← hk, ← hop, encodeFields_fields]⟩

/-- APPLY's mask leaves the opcode and the immediate (R49). -/
theorem apply_of_mask (w : Word) (hm : w &&& 0xF3FFFFFF#32 = 0x20000000#32) (h3 : slotField w ≠ 3#2) :
    ∃ k, encode (.apply k) = w := by
  have hfields : w &&& encodeFields 0xF#4 0#2 0x3FFFFFF#26 = encodeFields 2#4 0#2 0#26 := hm
  rw [and_encodeFields, encodeFields_inj] at hfields
  obtain ⟨hop, -, himm⟩ := hfields
  have hop : opField w = 2#4 := (BitVec.and_allOnes (x := opField w)).symm.trans hop
  have himm : immField w = 0#26 := (BitVec.and_allOnes (x := immField w)).symm.trans himm
  obtain ⟨k, hk⟩ := slot_of_ne_three w h3
  exact ⟨k, by rw [encode, ← hk, ← hop, ← himm, encodeFields_fields]⟩

theorem opcodeRow_mem (i : Instr) : opcodeRow i ∈ opcodeTable := by
  cases i <;> simp [opcodeTable, opcodeRow]

theorem encode_matches_row (i : Instr) : Laws.OpcodeRow.Statement i := by
  cases i with
  | nop => exact Laws.OpcodeRow.nop
  | synth k hz => exact Laws.OpcodeRow.synth k hz
  | apply k => exact Laws.OpcodeRow.apply k
  | txbit => exact Laws.OpcodeRow.txbit
  | sample => exact Laws.OpcodeRow.sample
  | decode => exact Laws.OpcodeRow.decode
  | poll => exact Laws.OpcodeRow.poll

/-- The extra condition P_TX_PRESENT of a command's row is the command's being well formed (R49, R136). -/
theorem opcodeRow_needsTx (tx : Bool) (i : Instr) : (!(opcodeRow i).needsTx || tx) = i.wellFormed tx := by
  cases i <;> rfl

theorem row_accepts_encode (tx : Bool) (i : Instr) (hwf : i.wellFormed tx = true) :
    (opcodeRow i).accepts tx (encode i) = true := by
  obtain ⟨hmask, hslot⟩ := encode_matches_row i
  simp [OpcodeRow.accepts, opcodeRow_needsTx, hmask, hslot, hwf]

/-- A row whose mask is all ones holds one word only (R49). -/
theorem encode_of_full_mask (w : Word) (i : Instr) (hfull : (opcodeRow i).mask = BitVec.allOnes 32)
    (hmask : w &&& (opcodeRow i).mask = (opcodeRow i).pattern) : encode i = w := by
  obtain ⟨hi, -⟩ := encode_matches_row i
  rw [hfull, BitVec.and_allOnes] at hi hmask
  rw [hi, hmask]

/-- A word that a command's row accepts is the word of some command of that row: only SYNTH's and APPLY's rows have
operands. -/
theorem encode_of_row_accepts (tx : Bool) (w : Word) (i : Instr) (h : (opcodeRow i).accepts tx w = true) :
    ∃ j, opcodeRow j = opcodeRow i ∧ j.wellFormed tx = true ∧ encode j = w := by
  simp only [OpcodeRow.accepts, opcodeRow_needsTx, Bool.and_eq_true, decide_eq_true_eq] at h
  obtain ⟨⟨hmask, hslot⟩, hwf⟩ := h
  by_cases hfull : (opcodeRow i).mask = BitVec.allOnes 32
  · exact ⟨i, rfl, hwf, encode_of_full_mask w i hfull hmask⟩
  cases i with
  | nop | txbit | sample | decode | poll => exact absurd rfl hfull
  | synth k hz =>
    obtain ⟨k, hk⟩ := synth_of_mask w hmask (by simpa [opcodeRow] using hslot)
    exact ⟨.synth k (immField w), rfl, rfl, hk⟩
  | apply k =>
    obtain ⟨k, hk⟩ := apply_of_mask w hmask (by simpa [opcodeRow] using hslot)
    exact ⟨.apply k, rfl, rfl, hk⟩

/-- A row of the opcode map accepts the words of its own well-formed commands and no others (R49). -/
theorem row_accepts_iff (tx : Bool) (w : Word) (r : OpcodeRow) (hr : r ∈ opcodeTable) :
    r.accepts tx w = true ↔ ∃ i, opcodeRow i = r ∧ decode tx w = .ok i := by
  constructor
  · intro h
    have hrow : ∃ i, opcodeRow i = r := by
      simp only [opcodeTable, List.mem_cons, List.not_mem_nil, or_false] at hr
      rcases hr with rfl | rfl | rfl | rfl | rfl | rfl | rfl <;> exact ⟨_, rfl⟩
    obtain ⟨i, rfl⟩ := hrow
    obtain ⟨j, hj, hwf, hw⟩ := encode_of_row_accepts tx w i h
    exact ⟨j, hj, (decode_ok_iff tx w j).mpr ⟨hw, hwf⟩⟩
  · rintro ⟨i, rfl, h⟩
    obtain ⟨rfl, hwf⟩ := (decode_ok_iff tx w i).mp h
    exact row_accepts_encode tx i hwf

/-- Settles O3: a row accepts the words that decode to its commands, every command has a row, and a word decodes to one
command only. -/
theorem legalWordsAreTheOpcodeMap : Obligations.LegalWordsAreTheOpcodeMap := by
  refine ⟨fun tx w => ?legal, fun tx w i h => ?own, fun tx w r q hr hq har haq => ?disjoint⟩
  case own => exact (row_accepts_iff tx w _ (opcodeRow_mem i)).mpr ⟨i, rfl, h⟩
  case legal =>
    rw [legalWord, List.any_eq_true]
    constructor
    · rintro ⟨i, h⟩
      exact ⟨opcodeRow i, opcodeRow_mem i, (row_accepts_iff tx w _ (opcodeRow_mem i)).mpr ⟨i, rfl, h⟩⟩
    · rintro ⟨r, hr, har⟩
      obtain ⟨i, -, h⟩ := (row_accepts_iff tx w r hr).mp har
      exact ⟨i, h⟩
  case disjoint =>
    obtain ⟨i, rfl, hi⟩ := (row_accepts_iff tx w r hr).mp har
    obtain ⟨j, rfl, hj⟩ := (row_accepts_iff tx w q hq).mp haq
    rw [Except.ok.inj (hi.symm.trans hj)]

end Sys2Proof
end

section
/-! ### The illegal words (R54, R55, R130) -/

namespace Sys2Proof

theorem decodePlain_error (w : Word) (i : Instr) :
    (∃ e, decodePlain w i = .error e) ↔ slotField w ≠ 0#2 ∨ immField w ≠ 0#26 := by
  unfold decodePlain
  split
  case isTrue h => simp [h]
  case isFalse h => simpa using not_and_or.mp h

theorem decodeSynth_error (w : Word) : (∃ e, decodeSynth w = .error e) ↔ slotField w = 3#2 := by
  rw [← slotOfField_none]
  unfold decodeSynth
  rcases slotOfField (slotField w) with _ | k <;> simp

theorem decodeApply_error (w : Word) :
    (∃ e, decodeApply w = .error e) ↔ slotField w = 3#2 ∨ immField w ≠ 0#26 := by
  rw [← slotOfField_none]
  unfold decodeApply
  rcases slotOfField (slotField w) with _ | k
  · simp
  · by_cases himm : immField w = 0#26 <;> simp [himm]

/-- Settles O4: the decoder's refusals, opcode by opcode, and the fault one raises in a running block. -/
theorem illegalWordsRaiseIllegalCommand : Obligations.IllegalWordsRaiseIllegalCommand := by
  refine ⟨fun tx w => ?refused, fun s w e hrun hdec => ?fault⟩
  case refused =>
    have hop (n : BitVec 4) : opField w = n ↔ (opField w).toNat = n.toNat := BitVec.toNat_inj.symm
    simp only [hop]
    unfold decode
    split
    case h_1 ho | h_5 ho | h_6 ho | h_7 ho => simp [ho, decodePlain_error]
    case h_2 ho => simp [ho, decodeSynth_error]
    case h_3 ho => simp [ho, decodeApply_error]
    case h_4 ho => cases tx <;> simp [ho, decodePlain_error]
    case h_8 =>
      have hbig : 7 ≤ (opField w).toNat := by grind
      simp [hbig]
  case fault =>
    rw [Machine.runWord_of_decode_error w e s hdec]
    exact Machine.unlessHalted_running s _ hrun

end Sys2Proof
end

/-! ## 40_synthesizer.md: SYNTH's search, its arithmetic, and the frames of the transmit side -/

section
/-! ### What SYNTH leaves in its slot, in the oscillator and in the rest (R62, R67, R75) -/

namespace Sys2Proof.Machine

theorem targetHz_eq_toNat (hz : BitVec 26) : targetHz hz = hz.toNat :=
  BitVec.toNat_setWidth_of_le (by decide)

theorem one_le_target (hz : BitVec 26) (h : hz ≠ 0#26) : 1 ≤ hz.toNat :=
  Nat.pos_of_ne_zero (fun h0 => h (BitVec.eq_of_toNat_eq h0))

theorem exec_synth_running (s : State) (k : Slot) (hz : BitVec 26) (h : s.halted = false) :
    exec (.synth k hz) s = .next (synthesized s k hz) :=
  unlessHalted_running s _ h

theorem synthesized_of_some (s : State) (k : Slot) (hz : BitVec 26) (c : ToneConfig)
    (h : synthesize s.p hz.toNat = some c) : synthesized s k hz = writeSlot s k c := by
  simp [synthesized, targetHz_eq_toNat, h]

theorem synthesized_of_none (s : State) (k : Slot) (hz : BitVec 26) (h : synthesize s.p hz.toNat = none) :
    synthesized s k hz = raiseFault .configUnreachable (encode (.synth k hz)) s := by
  simp [synthesized, targetHz_eq_toNat, h]

/-- A SYNTH that ends running has written its slot with what the search found (R58). -/
theorem synthesized_running (s : State) (k : Slot) (hz : BitVec 26) (h : (synthesized s k hz).halted = false) :
    ∃ c, synthesize s.p hz.toNat = some c ∧ synthesized s k hz = writeSlot s k c := by
  rcases hc : synthesize s.p hz.toNat with _ | c
  · rw [synthesized_of_none s k hz hc] at h
    simp at h
  · exact ⟨c, rfl, synthesized_of_some s k hz c hc⟩

theorem readSlot_raiseFault (s : State) (c : FaultCode) (w : Word) (j : Slot) :
    readSlot (raiseFault c w s) j = readSlot s j := by
  cases j <;> rfl

/-- Settles O23: for T = 0 the search is not run, and the disabled configuration is its result. -/
theorem synthOfZeroDisables : Obligations.SynthOfZeroDisables := by
  intro s k hrun
  have hzero : synthesize s.p (0#26).toNat = some ToneConfig.disabled := if_pos rfl
  rw [exec_synth_running s k _ hrun, synthesized_of_some s k _ _ hzero, ToneConfig.disabled]

/-- Settles O30: SYNTH writes a slot and no oscillator register, and APPLY reads the slot just written. -/
theorem retuneTakesEffectAtApply : Obligations.RetuneTakesEffectAtApply := by
  intro s t u k hz hrun hsynth htrun happly
  rw [exec_synth_running s k hz hrun] at hsynth
  cases hsynth
  obtain ⟨c, hc, hw⟩ := synthesized_running s k hz htrun
  rw [hw] at htrun happly ⊢
  rcases (execApply_next k _ u).mp happly with ⟨hhalt, -⟩ | ⟨-, rfl⟩
  · simp [hrun] at hhalt
  · simp [hc]

/-- SYNTH writes no other slot than its own, none at all when it faults, and the fault registers only then (R63, R67). -/
theorem execSynth_slots_and_fault (k : Slot) (hz : BitVec 26) (s t : State) (h : execSynth k hz s = .next t) :
    (∀ j, j ≠ k → readSlot t j = readSlot s j)
    ∧ (t.halted = true → ∀ j, readSlot t j = readSlot s j)
    ∧ (t.halted = false → t.faultCode = s.faultCode ∧ t.faultCmd = s.faultCmd) := by
  rcases (execSynth_next k hz s t).mp h with ⟨-, rfl⟩ | ⟨hrun, rfl⟩
  · simp
  · rcases synthesized_cases s k hz with ⟨c, -, hw⟩ | ⟨-, hf⟩
    · rw [hw]
      exact ⟨fun j hj => readSlot_writeSlot_other s j k c hj, by simp [hrun], by simp⟩
    · rw [hf]
      simp [readSlot_raiseFault]

/-- Settles O55: the frames of the three commands, one for each command and for TXBIT without the framer. -/
theorem transmitCommandsFrame : Obligations.TransmitCommandsFrame := by
  refine ⟨fun s t k hz h => ?synth, fun s t k h => execApply_frame k s t h,
    fun s t h htx => execTxbit_frame s t h htx, fun s t h htx => execTxbit_absent_frame s t h htx⟩
  case synth =>
    obtain ⟨hother, hfault, hrunning⟩ := execSynth_slots_and_fault k hz s t h
    exact ⟨hother, execSynth_frame k hz s t h, hfault, hrunning⟩

end Sys2Proof.Machine
end

section
/-! ### The compare value and the error in the spec's rationals (R18, R59, R61) -/

namespace Sys2Proof.Machine

/-- Above -1/2 rounding half away from zero is rounding half up: between -1/2 and 0 both give 0 (R18). -/
theorem roundHalfAway_of_gt (x : ℚ) (h : -(1 / 2) < x) : roundHalfAway x = ⌊x + 1 / 2⌋ := by
  unfold roundHalfAway
  split
  case isTrue => rfl
  case isFalse hneg =>
    have hleft : ⌊-x + 1 / 2⌋ = 0 := Int.floor_eq_zero_iff.mpr ⟨by linarith, by linarith⟩
    have hright : ⌊x + 1 / 2⌋ = 0 := Int.floor_eq_zero_iff.mpr ⟨by linarith, by linarith⟩
    rw [hleft, hright, neg_zero]

/-- The tie at -1/2 goes away from zero, so nothing at or below it rounds to 0 (R18). -/
theorem roundHalfAway_of_le (x : ℚ) (h : x ≤ -(1 / 2)) : roundHalfAway x ≤ -1 := by
  have hfloor : 1 ≤ ⌊-x + 1 / 2⌋ := Int.le_floor.mpr (by push_cast; linarith)
  rw [roundHalfAway, if_neg (by linarith)]
  omega

theorem compareValue_eq_none (clk d t : Nat) : compareValue clk d t = none ↔ clk ≤ d * t := by
  simp [compareValue]

theorem compareValue_eq_some (clk d t c : Nat) :
    compareValue clk d t = some c ↔ d * t < clk ∧ (clk - d * t) / (2 * d * t) = c := by
  simp [compareValue]

section
variable (clk d t : Nat) (hd : 1 ≤ d) (ht : 1 ≤ t)
include hd ht

/-- The candidate is below range exactly when the quotient is at most one half (R59). -/
theorem quotient_le_half_iff : (clk : ℚ) / (2 * (d : ℚ) * (t : ℚ)) ≤ 1 / 2 ↔ clk ≤ d * t := by
  have hpos : (0 : ℚ) < 2 * d * t := by positivity
  rw [div_le_iff₀ hpos, show 1 / 2 * (2 * (d : ℚ) * t) = d * t by ring]
  exact_mod_cast Iff.rfl

/-- In range, the rounded rational is the quotient of the integer division (R59). -/
theorem round_of_lt (h : d * t < clk) :
    roundHalfAway ((clk : ℚ) / (2 * (d : ℚ) * (t : ℚ)) - 1) = ((clk - d * t) / (2 * d * t) : Nat) := by
  have hhalf : 1 / 2 < (clk : ℚ) / (2 * (d : ℚ) * (t : ℚ)) :=
    not_le.mp (fun hle => Nat.not_le.mpr h ((quotient_le_half_iff clk d t hd ht).mp hle))
  have hshift : (clk : ℚ) / (2 * (d : ℚ) * (t : ℚ)) - 1 + 1 / 2 = (clk - d * t : Nat) / (2 * d * t : Nat) := by
    push_cast [Nat.cast_sub h.le]
    field_simp
    ring
  rw [roundHalfAway_of_gt _ (by linarith), hshift, Rat.floor_natCast_div_natCast]
  norm_cast

/-- Below range, the rounded rational is negative (R59). -/
theorem round_of_le (h : clk ≤ d * t) : roundHalfAway ((clk : ℚ) / (2 * (d : ℚ) * (t : ℚ)) - 1) ≤ -1 :=
  roundHalfAway_of_le _ (by linarith [(quotient_le_half_iff clk d t hd ht).mpr h])

/-- The integer compare value is the rounded rational (R59). -/
theorem compareValue_eq_some_iff_round (c : Nat) :
    compareValue clk d t = some c ↔ roundHalfAway ((clk : ℚ) / (2 * (d : ℚ) * (t : ℚ)) - 1) = (c : ℤ) := by
  rw [compareValue_eq_some]
  rcases Nat.lt_or_ge (d * t) clk with hlt | hle
  · rw [round_of_lt clk d t hd ht hlt, Nat.cast_inj]
    simp [hlt]
  · have hround := round_of_le clk d t hd ht hle
    omega

theorem compareValue_eq_none_iff_round :
    compareValue clk d t = none ↔ roundHalfAway ((clk : ℚ) / (2 * (d : ℚ) * (t : ℚ)) - 1) ≤ -1 := by
  rw [compareValue_eq_none]
  refine ⟨round_of_le clk d t hd ht, fun hround => ?_⟩
  by_contra hlt
  rw [round_of_lt clk d t hd ht (Nat.lt_of_not_le hlt)] at hround
  exact absurd ((Int.natCast_nonneg _).trans hround) (by decide)

end

/-- Settles O24: in range the rounding is the integer division; below range it is negative. -/
theorem compareValueIsTheRoundedRational : Obligations.CompareValueIsTheRoundedRational := by
  intro clk d t _ hd ht
  exact ⟨compareValue_eq_some_iff_round clk d t hd ht, compareValue_eq_none_iff_round clk d t hd ht,
    (compareValue_eq_none clk d t).trans (quotient_le_half_iff clk d t hd ht).symm⟩

theorem candidateNum_eq_abs (clk d c t : Nat) :
    (candidateNum clk d c t : ℤ) = |(clk : ℤ) - (candidateDen d c t : ℤ)| :=
  Int.natCast_natAbs _

/-- The integer fraction of a candidate is its relative frequency error (R61). -/
theorem candidateError_eq_freqError (p : Params) (d c t : Nat) (hd : 1 ≤ d) (ht : 1 ≤ t) :
    (candidateNum p.clockHz d c t : ℚ) / (candidateDen d c t : ℚ) = freqError p t d c := by
  have hden : (candidateDen d c t : ℚ) = 2 * d * (c + 1) * t := by simp [candidateDen]
  have hpos : (0 : ℚ) < candidateDen d c t := by rw [hden]; positivity
  have hnum : (candidateNum p.clockHz d c t : ℚ) = |(p.clockHz : ℚ) - candidateDen d c t| := by
    exact_mod_cast candidateNum_eq_abs p.clockHz d c t
  have hactual : actualHz p d c / (t : ℚ) = (p.clockHz : ℚ) / candidateDen d c t := by
    rw [actualHz, div_div, hden]
  rw [freqError, hactual, hnum, ← abs_of_pos hpos, ← abs_div, abs_of_pos hpos, sub_div, div_self hpos.ne']

/-- The fields of a candidate, by its compare value (R59 to R61). -/
theorem candidate_fields (p : Params) (t i d : Nat) (cfg : ToneConfig) (h : candidate p t i d = some cfg) :
    cfg = ⟨i, cfg.cmp, candidateNum p.clockHz d cfg.cmp t, candidateDen d cfg.cmp t⟩ := by
  obtain ⟨-, -, rfl⟩ := (candidate_some p t i d cfg).mp h
  rfl

theorem candidate_errorFraction (p : Params) (t i d : Nat) (cfg : ToneConfig) (hd : 1 ≤ d) (ht : 1 ≤ t)
    (h : candidate p t i d = some cfg) : errorFraction cfg = freqError p t d cfg.cmp := by
  rw [← candidateError_eq_freqError p d cfg.cmp t hd ht, candidate_fields p t i d cfg h, errorFraction]

/-- Settles O25: the fraction is the error by arithmetic, and its denominator is below twice the clock rate. -/
theorem storedErrorIsTheFrequencyError : Obligations.StoredErrorIsTheFrequencyError := by
  intro p t i d cfg hv ht _ hd h
  have hd1 := (dividerOf_range p hv i d hd).1
  have hclk := ((Params.valid_iff p).mp hv).clock_lt
  obtain ⟨-, -, hnum, hpos, -⟩ := candidate_slotLegal p hv t i d cfg ht hd h
  have hlt : cfg.errDen < 2 * p.clockHz := by
    obtain ⟨hrange, -, rfl⟩ := (candidate_some p t i d cfg).mp h
    exact (candidateDen_bounds p.clockHz d t hd1 ht hrange).2
  have hfields := candidate_fields p t i d cfg h
  have hden : cfg.errDen = candidateDen d cfg.cmp t := congrArg ToneConfig.errDen hfields
  have hnumEq : cfg.errNum = candidateNum p.clockHz d cfg.cmp t := congrArg ToneConfig.errNum hfields
  have habs : (cfg.errNum : ℤ) = |(p.clockHz : ℤ) - (cfg.errDen : ℤ)| := by
    rw [hnumEq, hden, candidateNum_eq_abs]
  exact ⟨candidate_errorFraction p t i d cfg hd1 ht h, hden, habs, by omega, hnum, hpos⟩

end Sys2Proof.Machine
end

section
/-! ### The search finds the first accepted candidate of least error (R58, R60, R63, R64) -/

namespace Sys2Proof.Machine

/-- The spec accepts (i, d, c) exactly when the search's candidate of divider i has compare value c (R59, R60). -/
theorem accepted_iff_candidate (p : Params) (hv : p.valid = true) (t i d c : Nat) (ht : 1 ≤ t) :
    Accepted p t i d c ↔ dividerOf p i = some d
      ∧ candidate p t i d = some ⟨i, c, candidateNum p.clockHz d c t, candidateDen d c t⟩ := by
  refine and_congr_right (fun hd => ?_)
  have hd1 := (dividerOf_range p hv i d hd).1
  rw [← compareValue_eq_some_iff_round p.clockHz d t hd1 ht]
  unfold candidate
  rcases compareValue p.clockHz d t with _ | c'
  · simp
  · by_cases hgt : c' > p.maxCmp
    · simp only [if_pos hgt, Option.some.injEq, reduceCtorEq, iff_false]
      omega
    · simp only [if_neg hgt, Option.some.injEq, ToneConfig.mk.injEq, true_and]
      constructor
      · rintro ⟨rfl, -⟩
        exact ⟨rfl, rfl, rfl⟩
      · rintro ⟨rfl, -⟩
        exact ⟨rfl, Nat.le_of_not_gt hgt⟩

/-- Any candidate of the search is accepted by the spec, with its own compare value. -/
theorem accepted_of_candidate (p : Params) (hv : p.valid = true) (t i d : Nat) (cfg : ToneConfig) (ht : 1 ≤ t)
    (hd : dividerOf p i = some d) (h : candidate p t i d = some cfg) : Accepted p t i d cfg.cmp :=
  (accepted_iff_candidate p hv t i d cfg.cmp ht).mpr ⟨hd, h.trans (congrArg some (candidate_fields p t i d cfg h))⟩

/-- The search's list, with nothing found yet in front: its entry at a selector is that divider's candidate. -/
theorem candidates_at_selector (p : Params) (t i : Nat) (cfg : ToneConfig) :
    (none :: candidatesFrom p t 1 p.dividers)[i]? = some (some cfg) ↔
      ∃ d, dividerOf p i = some d ∧ candidate p t i d = some cfg := by
  cases i with
  | zero => simp [dividerOf]
  | succ j => simp [candidatesFrom_getElem?, dividerOf_succ, Nat.add_comm 1 j]

/-- The first best by positions: it stands at some place, is at most every entry, and below every earlier one. -/
theorem FirstBest.position (l : List (Option ToneConfig)) (b : ToneConfig) (h : FirstBest l (some b)) :
    ∃ i : Nat, l[i]? = some (some b) ∧ ∀ (j : Nat) x, l[j]? = some (some x) →
      errorFraction b ≤ errorFraction x ∧ (j < i → errorFraction b < errorFraction x) := by
  obtain ⟨l1, l2, rfl, hbefore, hafter⟩ := h
  refine ⟨l1.length, by simp, fun j x hx => ?_⟩
  rcases lt_trichotomy j l1.length with hlt | rfl | hgt
  · rw [List.getElem?_append_left hlt] at hx
    have hbx := hbefore x (List.mem_of_getElem? hx)
    exact ⟨hbx.le, fun _ => hbx⟩
  · have hbx : b = x := by simpa using hx
    simp [hbx]
  · rw [List.getElem?_append_right hgt.le, List.getElem?_cons, if_neg (by omega)] at hx
    exact ⟨hafter x (List.mem_of_getElem? hx), fun hlt => absurd hlt hgt.not_gt⟩

section
variable (p : Params) (hv : p.valid = true) (t : Nat) (ht : 1 ≤ t)
include hv ht

theorem synthesize_firstBest : FirstBest (none :: candidatesFrom p t 1 p.dividers) (synthesize p t) := by
  rw [synthesize, if_neg (by omega)]
  refine searchFrom_firstBest p t p.dividers 1 none (fun x hx => ?_)
  obtain ⟨-, -, -, hpos, -⟩ := candidatesFrom_slotLegal p hv t ht x hx
  exact hpos

/-- The result of the search is the candidate of some selector, at most every candidate and below every earlier one. -/
theorem synthesize_some (b : ToneConfig) (h : synthesize p t = some b) :
    ∃ i d, dividerOf p i = some d ∧ candidate p t i d = some b
      ∧ ∀ j e x, dividerOf p j = some e → candidate p t j e = some x →
        errorFraction b ≤ errorFraction x ∧ (j < i → errorFraction b < errorFraction x) := by
  obtain ⟨i, hi, hleast⟩ := FirstBest.position _ b (h ▸ synthesize_firstBest p hv t ht)
  obtain ⟨d, hd, hb⟩ := (candidates_at_selector p t i b).mp hi
  exact ⟨i, d, hd, hb, fun j e x he hx => hleast j x ((candidates_at_selector p t j x).mpr ⟨e, he, hx⟩)⟩

/-- The search finds nothing exactly when no candidate is accepted (R63). -/
theorem synthesize_eq_none_iff : synthesize p t = none ↔ ¬ ∃ i d c, Accepted p t i d c := by
  constructor
  · rintro hnone ⟨i, d, c, hacc⟩
    obtain ⟨hd, hc⟩ := (accepted_iff_candidate p hv t i d c ht).mp hacc
    have hall : FirstBest (none :: candidatesFrom p t 1 p.dividers) none := hnone ▸ synthesize_firstBest p hv t ht
    exact absurd (hall _ (List.mem_of_getElem? ((candidates_at_selector p t i _).mpr ⟨d, hd, hc⟩))) (by simp)
  · intro hunreachable
    rcases hb : synthesize p t with _ | b
    · rfl
    · obtain ⟨i, d, hd, hc, -⟩ := synthesize_some p hv t ht b hb
      exact absurd ⟨i, d, b.cmp, accepted_of_candidate p hv t i d b ht hd hc⟩ hunreachable

end

/-- Settles O26: the search's first best is an accepted candidate, and the fractions it compares are the errors. -/
theorem synthWritesTheBestCandidate : Obligations.SynthWritesTheBestCandidate := by
  intro s k hz hrun hne hsome
  have hv := s.par.property
  have ht : 1 ≤ hz.toNat := one_le_target hz hne
  rcases hb : synthesize s.p hz.toNat with _ | b
  · exact absurd hsome ((synthesize_eq_none_iff s.p hv hz.toNat ht).mp hb)
  obtain ⟨i, d, hd, hc, hleast⟩ := synthesize_some s.p hv hz.toNat ht b hb
  have hfields := candidate_fields s.p hz.toNat i d b hc
  have hd1 := (dividerOf_range s.p hv i d hd).1
  have herr := candidate_errorFraction s.p hz.toNat i d b hd1 ht hc
  have hother (j e x : Nat) (hacc : Accepted s.p hz.toNat j e x) :
      freqError s.p hz.toNat d b.cmp ≤ freqError s.p hz.toNat e x
      ∧ (j < i → freqError s.p hz.toNat d b.cmp < freqError s.p hz.toNat e x) := by
    obtain ⟨he, hx⟩ := (accepted_iff_candidate s.p hv hz.toNat j e x ht).mp hacc
    have he1 := (dividerOf_range s.p hv j e he).1
    rw [← herr, ← candidate_errorFraction s.p hz.toNat j e _ he1 ht hx]
    exact hleast j e _ he hx
  refine ⟨i, d, b.cmp, candidateNum s.p.clockHz d b.cmp hz.toNat, candidateDen d b.cmp hz.toNat,
    accepted_of_candidate s.p hv hz.toNat i d b ht hd hc, ?_, rfl, candidateNum_eq_abs _ _ _ _,
    candidateError_eq_freqError s.p d b.cmp hz.toNat hd1 ht,
    fun j e x hacc => (hother j e x hacc).1, fun j e x hacc => (hother j e x hacc).2⟩
  rw [exec_synth_running s k hz hrun, synthesized_of_some s k hz b hb, ← hfields]

/-- Settles O27: with nothing accepted the search finds nothing, and SYNTH enters the fault. -/
theorem synthUnreachableHalts : Obligations.SynthUnreachableHalts := by
  intro s k hz hrun hne hnone
  have ht : 1 ≤ hz.toNat := one_le_target hz hne
  have hsearch := (synthesize_eq_none_iff s.p s.par.property hz.toNat ht).mpr hnone
  rw [exec_synth_running s k hz hrun, synthesized_of_none s k hz hsearch, raiseFault]

end Sys2Proof.Machine
end

/-! ## 41_tone_driver.md: APPLY, the oscillator and the prescaler -/

section
/-! ### APPLY (R68, R76) -/

namespace Sys2Proof.Machine

/-- Settles O28: a running block is past the halt gate, and what is left is the loading of the oscillator. -/
theorem applyLoadsTheOscillator : Obligations.ApplyLoadsTheOscillator :=
  fun s _ hrun => unlessHalted_running s _ hrun

/-- The slot that was loaded still stands after it, so loading it again changes nothing (R67, R68). -/
theorem loadOscillator_readSlot_idem (s : State) (k : Slot) :
    loadOscillator (loadOscillator s (readSlot s k)) (readSlot (loadOscillator s (readSlot s k)) k)
      = loadOscillator s (readSlot s k) := by
  cases k <;> rfl

/-- Settles O29: a halted block ignores both, and a running one loads the same slot twice. -/
theorem applyTwiceIsApplyOnce : Obligations.ApplyTwiceIsApplyOnce := by
  intro s t k h
  refine (execApply_next k t t).mpr ?_
  rcases (execApply_next k s t).mp h with ⟨hhalt, rfl⟩ | ⟨hrun, rfl⟩
  · exact .inl ⟨hhalt, rfl⟩
  · exact .inr ⟨hrun, (loadOscillator_readSlot_idem s k).symm⟩

end Sys2Proof.Machine
end

section
/-! ### The prescaler over many CLK steps, and the disabled oscillator (R70, R71) -/

namespace Sys2Proof.Machine

theorem pscClk_lt (s : State) : pscClk s < pscMod s.p := Nat.mod_lt _ (pscMod_pos s.p s.par.property)

/-- PSC after `n` more steps is counted from the PSC before the first, wrapped or not. -/
theorem pscClk_add_mod (s : State) (n : Nat) : (pscClk s + n) % pscMod s.p = (s.psc + (n + 1)) % pscMod s.p := by
  rw [pscClk, Nat.mod_add_mod, Nat.add_right_comm, Nat.add_assoc]

/-- Settles O31, by induction on the steps: each holds the pair and moves PSC on. -/
theorem disabledOscillatorHoldsTheLine : Obligations.DisabledOscillatorHoldsTheLine := by
  intro s n hsel hpsc
  induction n generalizing s with
  | zero => exact ⟨s, rfl, hsel, rfl, rfl, (Nat.mod_eq_of_lt hpsc).symm⟩
  | succ n ih =>
    have hstep := (clkStep_next s _).mpr ⟨_, (oscClk_ok s _).mpr (.inl ⟨hsel, rfl⟩), rfl⟩
    rw [runClks_succ n s _ hstep, ← pscClk_add_mod]
    exact ih _ hsel (pscClk_lt s)

end Sys2Proof.Machine
end

section
/-! ### The enabled oscillator over many CLK steps (R65, R70, R73) -/

namespace Sys2Proof.Machine

/-- OSC_CNT and TONE_OUT of a state. -/
def oscPair (s : State) : OscPair := ⟨s.oscCnt, s.toneOut⟩

/-- Whether a line that toggles `n` times ends at the other level. -/
def isOdd (n : Nat) : Bool := decide (n % 2 = 1)

theorem isOdd_add (a b : Nat) : isOdd (a + b) = (isOdd a ^^ isOdd b) := by
  rcases Nat.mod_two_eq_zero_or_one a with ha | ha <;> rcases Nat.mod_two_eq_zero_or_one b with hb | hb <;>
    simp [isOdd, Nat.add_mod, ha, hb]

/-- The oscillator `k` prescaled ticks later, in closed form: it counts modulo OSC_CMP + 1 and toggles once each time
round (R70). -/
def OscPair.afterTicks (cmp : Nat) (o : OscPair) (k : Nat) : OscPair :=
  ⟨(o.cnt + k) % (cmp + 1), o.tone ^^ isOdd ((o.cnt + k) / (cmp + 1))⟩

theorem OscPair.afterTicks_zero (cmp : Nat) (o : OscPair) (h : o.cnt ≤ cmp) : o.afterTicks cmp 0 = o := by
  have hlt : o.cnt < cmp + 1 := by omega
  simp [afterTicks, isOdd, Nat.mod_eq_of_lt hlt, Nat.div_eq_of_lt hlt]

theorem OscPair.afterTicks_cnt_le (cmp : Nat) (o : OscPair) (k : Nat) : (o.afterTicks cmp k).cnt ≤ cmp :=
  Nat.le_of_lt_succ (Nat.mod_lt _ (Nat.succ_pos cmp))

/-- Ticks add up: the rounds of the first `j` and those of the `k` from the counter they leave. -/
theorem OscPair.afterTicks_add (cmp : Nat) (o : OscPair) (j k : Nat) :
    (o.afterTicks cmp j).afterTicks cmp k = o.afterTicks cmp (j + k) := by
  have hsum : o.cnt + (j + k) = (cmp + 1) * ((o.cnt + j) / (cmp + 1)) + ((o.cnt + j) % (cmp + 1) + k) := by
    have := Nat.div_add_mod (o.cnt + j) (cmp + 1)
    omega
  simp only [afterTicks]
  rw [hsum, Nat.mul_add_mod, Nat.mul_add_div (Nat.succ_pos cmp), isOdd_add, Bool.xor_assoc]

/-- With OSC_CNT at most OSC_CMP and OSC_CMP in range a tick is a count modulo OSC_CMP + 1: OSC_CNT never wraps at its
width (R8, R70, R74). -/
theorem oscTick_eq_afterTicks (s : State) (hcmp : s.oscCmp ≤ s.p.maxCmp) (hcnt : s.oscCnt ≤ s.oscCmp) :
    oscTick s = (oscPair s).afterTicks s.oscCmp 1 := by
  by_cases hmatch : s.oscCnt = s.oscCmp
  · simp [oscTick, oscPair, OscPair.afterTicks, isOdd, hmatch]
  · have hlt : s.oscCnt + 1 < s.oscCmp + 1 := by omega
    have hfit : s.oscCnt + 1 < 2 ^ s.p.oscW := cmp_fits s.p s.constraints _ (by omega)
    simp [oscTick, oscPair, OscPair.afterTicks, isOdd, hmatch, Nat.mod_eq_of_lt hfit, Nat.mod_eq_of_lt hlt,
      Nat.div_eq_of_lt hlt]

/-- One CLK step of an enabled oscillator is one prescaled tick or none (R70). -/
theorem oscClk_eq_afterTicks (s : State) (d : Nat) (hd : dividerOf s.p s.oscSel = some d)
    (hcmp : s.oscCmp ≤ s.p.maxCmp) (hcnt : s.oscCnt ≤ s.oscCmp) :
    oscClk s = .ok ((oscPair s).afterTicks s.oscCmp (if pscClk s % d = 0 then 1 else 0)) := by
  refine (oscClk_ok s _).mpr (.inr ?_)
  by_cases htick : pscClk s % d = 0
  · rw [if_pos htick, oscTick_eq_afterTicks s hcmp hcnt]
    exact .inl ⟨d, hd, htick, rfl⟩
  · rw [if_neg htick, OscPair.afterTicks_zero _ _ hcnt]
    exact .inr ⟨d, hd, htick, rfl⟩

/-- The oscillator after `n` CLK steps: the first step's tick, if it makes one, and those of the rest add up. -/
theorem runClks_oscPair (s : State) (d n : Nat) (hd : dividerOf s.p s.oscSel = some d)
    (hcmp : s.oscCmp ≤ s.p.maxCmp) (hcnt : s.oscCnt ≤ s.oscCmp) (hpsc : s.psc < pscMod s.p) :
    ∃ t, runClks n s = .next t ∧ t.psc = (s.psc + n) % pscMod s.p
      ∧ oscPair t = (oscPair s).afterTicks s.oscCmp ((s.psc + n) / d - s.psc / d) := by
  obtain ⟨hd1, -⟩ := dividerOf_range s.p s.par.property s.oscSel d hd
  have hdvd := dividerOf_dvd_pscMod s.p s.oscSel d hd
  induction n generalizing s with
  | zero =>
    refine ⟨s, rfl, (Nat.mod_eq_of_lt hpsc).symm, ?_⟩
    rw [Nat.add_zero, Nat.sub_self, OscPair.afterTicks_zero _ _ hcnt]
  | succ n ih =>
    have hstep := (clkStep_next s _).mpr ⟨_, oscClk_eq_afterTicks s d hd hcmp hcnt, rfl⟩
    rw [runClks_succ n s _ hstep, ← pscClk_add_mod, ticks_succ s.psc d (pscMod s.p) n hd1 hdvd hpsc,
      ← OscPair.afterTicks_add]
    exact ih _ hd hcmp (OscPair.afterTicks_cnt_le _ _ _) (pscClk_lt s) hdvd

/-- Settles O32: the closed form of the pair, field by field. -/
theorem oscillatorAfterManyCycles : Obligations.OscillatorAfterManyCycles := by
  intro s d n hd hcmp hcnt hpsc
  obtain ⟨t, ht, htpsc, htosc⟩ := runClks_oscPair s d n hd hcmp hcnt hpsc
  exact ⟨t, ht, htpsc, congrArg OscPair.cnt htosc, congrArg OscPair.tone htosc⟩

end Sys2Proof.Machine
end

section
/-! ### The toggles after an APPLY (R72) -/

namespace Sys2Proof.Machine

/-- The ticks of `n` cycles depend on PSC through its remainder alone. -/
theorem ticks_eq_of_remainder (psc d n : Nat) (hd : 1 ≤ d) : (psc + n) / d - psc / d = (psc % d + n) / d := by
  have hpsc : psc + n = d * (psc / d) + (psc % d + n) := by
    have := Nat.div_add_mod psc d
    omega
  rw [hpsc, Nat.mul_add_div hd, Nat.add_sub_cancel_left]

/-- From OSC_CNT = 0 the line toggles every (OSC_CMP + 1) * d cycles, counted from the prescaler's last tick (R72). -/
theorem toneAfter_of_cleared (s : State) (d n : Nat) (hd : dividerOf s.p s.oscSel = some d)
    (hcmp : s.oscCmp ≤ s.p.maxCmp) (hcnt : s.oscCnt = 0) (hpsc : s.psc < pscMod s.p) :
    toneAfter n s = some (s.toneOut ^^ decide ((s.psc % d + n) / ((s.oscCmp + 1) * d) % 2 = 1)) := by
  obtain ⟨hd1, -⟩ := dividerOf_range s.p s.par.property s.oscSel d hd
  obtain ⟨t, ht, -, -, htone⟩ := oscillatorAfterManyCycles s d n hd hcmp (by omega) hpsc
  rw [toneAfter, ht, Option.some_inj, htone, hcnt, Nat.zero_add, ticks_eq_of_remainder _ _ _ hd1,
    Nat.div_div_eq_div_mul, Nat.mul_comm d]

/-- Settles O33: the prescaler's last tick lies PSC mod d = d - k cycles before the APPLY, so a period counted from it
ends k + c*d cycles after the APPLY. -/
theorem firstToggleAfterApplyAndItsPeriod : Obligations.FirstToggleAfterApplyAndItsPeriod := by
  intro s t slot d c hL hrun hd hc happly
  rw [applyLoadsTheOscillator s slot hrun] at happly
  cases happly
  obtain ⟨hd1, -⟩ := dividerOf_range s.p s.par.property _ d hd
  obtain ⟨-, hcmp, -⟩ := readSlot_legal s slot hL
  obtain ⟨-, ⟨-, -, -, hpsc⟩, -⟩ := hL
  have htone := fun n => toneAfter_of_cleared (loadOscillator s (readSlot s slot)) d n hd hcmp rfl hpsc
  simp only [loadOscillator_toneOut, loadOscillator_psc, loadOscillator_oscCmp, hc] at htone
  have hrem : s.psc % d < d := Nat.mod_lt _ hd1
  have hperiod : (c + 1) * d = c * d + d := Nat.succ_mul c d
  refine ⟨d - s.psc % d, by omega, by omega, rfl, ?before, ?after⟩
  case before =>
    intro n hn
    have hround : (s.psc % d + n) / ((c + 1) * d) = 0 := Nat.div_eq_of_lt (by omega)
    exact (htone n).trans (by simp [hround])
  case after =>
    intro m r hr
    have hround : (s.psc % d + (d - s.psc % d + c * d + m * ((c + 1) * d) + r)) / ((c + 1) * d) = m + 1 := by
      rw [Nat.div_eq_iff (by omega), Nat.succ_mul]
      omega
    have hparity : (m + 1) % 2 = 1 ↔ m % 2 = 0 := by omega
    exact (htone _).trans (by simp only [hround, hparity])

end Sys2Proof.Machine
end

/-! ## 42_transmit_framer.md: TXBIT, the frame it sends, and its independence of the receiver -/

section
/-! ### TXBIT sends the current cell of the frame (R78 to R83) -/

namespace Sys2Proof.Machine

/-- The cells of a frame (R83), as `currentCell_ok` tells them apart. -/
theorem frameBits_getElem_eq_some (byte : Byte) (j : Nat) (b : Bool) :
    (frameBits byte)[j]? = some b ↔
      (j = 0 ∧ b = false) ∨ (j = 9 ∧ b = true) ∨ (1 ≤ j ∧ j ≤ 8 ∧ b = dataCell byte j) := by
  by_cases hj : j < 10
  · interval_cases j <;> simp [frameBits, dataCell, eq_comm]
  · have hnone : (frameBits byte)[j]? = none := List.getElem?_eq_none (Nat.le_of_not_lt hj)
    rw [hnone]
    simp only [reduceCtorEq, false_iff]
    omega

theorem frameBits_getElem_exists (byte : Byte) (j : Nat) : (∃ b, (frameBits byte)[j]? = some b) ↔ j ≤ 9 := by
  rw [← Option.isSome_iff_exists, isSome_getElem?]
  exact Nat.lt_succ_iff

/-- TXBIT with the framer present sends cell TXB of MSG[TXI]'s frame (R78, R82). -/
theorem execTxbit_sends (s : State) (byte : Byte) (b : Bool) (hrun : s.halted = false) (htx : s.p.txPresent = true)
    (hbyte : s.p.msg[s.txi]? = some byte) (hbit : (frameBits byte)[s.txb]? = some b) :
    execTxbit s = .next (advanceCell (loadOscillator s (readSlot s (slotOfBit b)))) := by
  have hcell : currentCell s = .ok b := by
    rw [currentCell_ok]
    rcases (frameBits_getElem_eq_some byte s.txb b).mp hbit with h0 | h9 | ⟨h1, h8, hb⟩
    · exact .inl h0
    · exact .inr (.inl h9)
    · exact .inr (.inr ⟨h1, h8, byte, hbyte, hb⟩)
  exact (execTxbit_next s _).mpr (.inr (.inl ⟨hrun, htx, b, hcell, rfl⟩))

/-- Settles O35: TXBIT loads the oscillator for the cell and moves on to the next, and these write five registers. -/
theorem txbitSendsTheCurrentCell : Obligations.TxbitSendsTheCurrentCell := by
  intro s byte b hrun htx hbyte hbit
  have hsent := execTxbit_sends s byte b hrun htx hbyte hbit
  rw [advanceCell_frame, advanceCell_txi, advanceCell_txb] at hsent
  exact hsent

theorem sendCells_succ (n : Nat) (s t : State) (h : execTxbit s = .next t) : sendCells (n + 1) s = sendCells n t := by
  simp only [sendCells, h]

/-- Within a frame `n + 1` TXBITs end as if the framer had stood at cell TXB + n and sent that one alone: the cells
before it leave nothing but the framer's place (R78, R81). -/
theorem sendCells_within_frame (byte : Byte) (b : Bool) (n : Nat) (s : State) (hrun : s.halted = false)
    (htx : s.p.txPresent = true) (hbyte : s.p.msg[s.txi]? = some byte)
    (hbit : (frameBits byte)[s.txb + n]? = some b) :
    sendCells (n + 1) s
      = .next (advanceCell (loadOscillator { s with txb := s.txb + n } (readSlot s (slotOfBit b)))) := by
  induction n generalizing s with
  | zero => rw [sendCells_succ 0 s _ (execTxbit_sends s byte b hrun htx hbyte hbit)]; rfl
  | succ n ih =>
    have hlast : s.txb + (n + 1) ≤ 9 := (frameBits_getElem_exists byte _).mp ⟨b, hbit⟩
    obtain ⟨b₀, hfirst⟩ := (frameBits_getElem_exists byte s.txb).mpr (by omega)
    have hnext : advanceCell (loadOscillator s (readSlot s (slotOfBit b₀)))
        = { loadOscillator s (readSlot s (slotOfBit b₀)) with txb := s.txb + 1 } := if_neg (by simp; omega)
    have hsent := execTxbit_sends s byte b₀ hrun htx hbyte hfirst
    have hplace : s.txb + (n + 1) = s.txb + 1 + n := by omega
    rw [hnext] at hsent
    rw [hplace] at hbit ⊢
    have hrest := ih { loadOscillator s (readSlot s (slotOfBit b₀)) with txb := s.txb + 1 } hrun htx hbyte hbit
    rw [sendCells_succ _ s _ hsent, hrest]
    cases b <;> rfl

/-- Settles O36: cell j is the last of j + 1 TXBITs from the start cell, and the tenth TXBIT sends the stop cell. -/
theorem tenTxbitsSendOneFrame : Obligations.TenTxbitsSendOneFrame := by
  intro s byte hrun htx hstart hbyte
  have hcells (j : Nat) (b : Bool) (hbit : (frameBits byte)[j]? = some b) :
      sendCells (j + 1) s = .next (advanceCell (loadOscillator { s with txb := j } (readSlot s (slotOfBit b)))) := by
    have hsent := sendCells_within_frame byte b j s hrun htx hbyte
    rw [hstart, Nat.zero_add] at hsent
    exact hsent hbit
  refine ⟨fun j b hbit => ⟨_, hcells j b hbit, ?_⟩, _, hcells 9 true rfl, rfl, rfl⟩
  simp

end Sys2Proof.Machine
end

section
/-! ### The transmit side and the receiver's registers (R67, R68, R84, R122) -/

namespace Sys2Proof.Machine

theorem readSlot_withReceiverOf (r s : State) (k : Slot) : readSlot (withReceiverOf r s) k = readSlot s k := by
  cases k <;> rfl

theorem writeSlot_withReceiverOf (r s : State) (k : Slot) (c : ToneConfig) :
    writeSlot (withReceiverOf r s) k c = withReceiverOf r (writeSlot s k c) := by
  cases k <;> rfl

theorem synthesized_withReceiverOf (r s : State) (k : Slot) (hz : BitVec 26) :
    synthesized (withReceiverOf r s) k hz = withReceiverOf r (synthesized s k hz) := by
  rcases hc : synthesize s.p hz.toNat with _ | c
  · rw [synthesized_of_none s k hz hc, synthesized_of_none (withReceiverOf r s) k hz hc]
    rfl
  · rw [synthesized_of_some s k hz c hc, synthesized_of_some (withReceiverOf r s) k hz c hc, writeSlot_withReceiverOf]

theorem advanceCell_withReceiverOf (r s : State) :
    advanceCell (withReceiverOf r s) = withReceiverOf r (advanceCell s) := by
  rw [advanceCell_frame, advanceCell_frame s, advanceCell_txi, advanceCell_txb, advanceCell_txi, advanceCell_txb]
  rfl

theorem loadOscillator_withReceiverOf (r s : State) (k : Slot) :
    loadOscillator (withReceiverOf r s) (readSlot (withReceiverOf r s) k)
      = withReceiverOf r (loadOscillator s (readSlot s k)) := by
  rw [readSlot_withReceiverOf]
  rfl

theorem execTxbit_withReceiverOf (r s t : State) (h : execTxbit s = .next t) :
    execTxbit (withReceiverOf r s) = .next (withReceiverOf r t) := by
  refine (execTxbit_next _ _).mpr ?_
  rcases (execTxbit_next s t).mp h with ⟨hhalt, rfl⟩ | ⟨hrun, htx, b, hcell, rfl⟩ | ⟨hrun, htx, rfl⟩
  · exact .inl ⟨hhalt, rfl⟩
  · refine .inr (.inl ⟨hrun, htx, b, hcell, ?_⟩)
    rw [loadOscillator_withReceiverOf, advanceCell_withReceiverOf]
  · exact .inr (.inr ⟨hrun, htx, rfl⟩)

theorem clkStep_withReceiverOf (r s t : State) (h : clkStep s = .next t) :
    clkStep (withReceiverOf r s) = .next (withReceiverOf r t) := by
  obtain ⟨o, ho, rfl⟩ := (clkStep_next s t).mp h
  exact (clkStep_next _ _).mpr ⟨o, ho, rfl⟩

/-- Settles O58: every operation of the transmit side commutes with putting in another state's receiver registers. -/
theorem transmitSideIgnoresTheReceiver : Obligations.TransmitSideIgnoresTheReceiver := by
  refine fun r s t => ⟨fun i hi h => ?commands, clkStep_withReceiverOf r s t⟩
  rcases hi with rfl | rfl | ⟨k, rfl⟩ | ⟨k, hz, rfl⟩
  · exact (execNop_next _ _).mpr (congrArg (withReceiverOf r) ((execNop_next s t).mp h))
  · exact execTxbit_withReceiverOf r s t h
  · refine (execApply_next k _ _).mpr ?_
    rw [loadOscillator_withReceiverOf]
    exact ((execApply_next k s t).mp h).imp (.imp_right (congrArg _)) (.imp_right (congrArg _))
  · refine (execSynth_next k hz _ _).mpr ?_
    rw [synthesized_withReceiverOf]
    exact ((execSynth_next k hz s t).mp h).imp (.imp_right (congrArg _)) (.imp_right (congrArg _))

end Sys2Proof.Machine
end

/-! ## 43_signal_sampler.md: SAMPLE, the window and the debounced level -/

section
/-! ### What SAMPLE leaves, with and without a crossing (R86 to R92) -/

namespace Sys2Proof.Machine

/-- Settles O37: below the sample period SAMPLE only accumulates, whatever RX_IN is. -/
theorem sampleWithoutACrossing : Obligations.SampleWithoutACrossing :=
  fun s hrun hshort => (execSample_next s _).mpr (.inr (.inr ⟨hrun, hshort, rfl⟩))

theorem debounced_falls_iff (lo hi h : Nat) : debounced true lo hi h = false ↔ lo > hi + h := by
  simp [debounced]

theorem debounced_rises_iff (lo hi h : Nat) : debounced false lo hi h = true ↔ hi > lo + h := by
  simp [debounced]

/-- The two strict comparisons of R90 fix the new level. -/
theorem eq_debounced (level new : Bool) (lo hi h : Nat) (hfall : level = true → (new = false ↔ lo > hi + h))
    (hrise : level = false → (new = true ↔ hi > lo + h)) : new = debounced level lo hi h := by
  cases level with
  | true =>
    have hfalse : new = false ↔ debounced true lo hi h = false := by rw [hfall rfl, debounced_falls_iff]
    exact Bool.not_inj (Bool.coe_false_iff_false.mp hfalse)
  | false => rw [Bool.eq_iff_iff, hrise rfl, debounced_rises_iff]

theorem edgeFlag_eq_decide_ne (old new : Bool) : edgeFlag old new = decide (new ≠ old) := by
  cases old <;> cases new <;> rfl

/-- EDGE tells whether the level flipped (R91). -/
theorem edgeFlag_xor (level flip : Bool) : edgeFlag level (level ^^ flip) = flip := by
  cases level <;> cases flip <;> rfl

/-- What one sample leaves when the counts after eviction and insertion are `lo` and `hi` (R86). -/
def sampled (s : State) (lo hi : Nat) : State :=
  { s with
    sacc := s.sacc + s.elapsed - s.p.samplePeriodUs
    win := s.win.set s.wpos s.rxIn
    wpos := (s.wpos + 1) % winSize s.p
    histLo := lo
    histHi := hi
    level := debounced s.level lo hi (hysteresis s.p)
    edge := edgeFlag s.level (debounced s.level lo hi (hysteresis s.p)) }

/-- `lo` and `hi` are the counts after the sample `old` is evicted and RX_IN inserted (R88). -/
structure CountsAfter (s : State) (old : Bool) (lo hi : Nat) : Prop where
  oldest : s.win[s.wpos]? = some old
  lows : lo + bitValue (!old) = s.histLo + bitValue (!s.rxIn)
  highs : hi + bitValue old = s.histHi + bitValue s.rxIn

theorem countsAfter_exists (s : State) (hW : WindowLegal s) : ∃ old lo hi, CountsAfter s old lo hi := by
  obtain ⟨old, hold⟩ := oldest_exists s hW
  obtain ⟨hhi, hlo⟩ := evicted_bucket_pos s old hW hold
  refine ⟨old, s.histLo - bitValue (!old) + bitValue (!s.rxIn), s.histHi - bitValue old + bitValue s.rxIn, hold, ?_, ?_⟩
  · omega
  · omega

/-- Eviction, as one record (R88, step 1). -/
theorem evictOldest_eq (s : State) (old : Bool) (hold : s.win[s.wpos]? = some old) (hhi : bitValue old ≤ s.histHi)
    (hlo : bitValue (!old) ≤ s.histLo) :
    evictOldest s = .ok { s with histHi := s.histHi - bitValue old, histLo := s.histLo - bitValue (!old) } := by
  rw [evictOldest_ok]
  cases old with
  | true => exact .inl ⟨hold, Nat.one_le_iff_ne_zero.mp hhi, rfl⟩
  | false => exact .inr ⟨hold, Nat.one_le_iff_ne_zero.mp hlo, rfl⟩

/-- A crossing completes, and leaves the counts with the old sample evicted and RX_IN inserted (R87, R88). -/
theorem execSample_crossing (s : State) (old : Bool) (lo hi : Nat) (hrun : s.halted = false) (hW : WindowLegal s)
    (hcross : s.p.samplePeriodUs ≤ s.sacc + s.elapsed) (hc : CountsAfter s old lo hi) :
    execSample s = .next (sampled s lo hi) := by
  obtain ⟨hold, hlows, hhighs⟩ := hc
  obtain ⟨hhi, hlo⟩ := evicted_bucket_pos s old hW hold
  have hevict := evictOldest_eq { s with sacc := s.sacc + s.elapsed - s.p.samplePeriodUs } old hold hhi hlo
  refine (execSample_next s _).mpr (.inr (.inl ⟨hrun, hcross, (takeSample_next _ _).mpr ⟨_, hevict, ?_⟩⟩))
  obtain rfl : lo = s.histLo - bitValue (!old) + bitValue (!s.rxIn) := by omega
  obtain rfl : hi = s.histHi - bitValue old + bitValue s.rxIn := by omega
  rw [insertNewest_eq]
  rfl

/-- Settles O38: the counts and the margin leave one choice of `lo`, `hi` and the new level. -/
theorem sampleOnACrossing : Obligations.SampleOnACrossing := by
  intro s old lo hi new hrun hW hcross hold hlo hhi hfall hrise
  have hsample := execSample_crossing s old lo hi hrun hW hcross ⟨hold, hlo, hhi⟩
  rw [eq_debounced s.level new lo hi (winSize s.p / 4) hfall hrise]
  refine hsample.trans ?_
  rw [sampled, edgeFlag_eq_decide_ne]
  rfl

end Sys2Proof.Machine
end

section
/-! ### The window is the last P_N samples (R85, R88) -/

namespace Sys2Proof.Machine

theorem sampleHistory_length (s : State) : (sampleHistory s).length = s.win.length := by
  rw [sampleHistory, List.length_append, Nat.add_comm, ← List.length_append, List.take_append_drop]

theorem sampled_history (s : State) (lo hi : Nat) (hW : WindowLegal s) :
    sampleHistory (sampled s lo hi) = (sampleHistory s).tail ++ [s.rxIn] := by
  obtain ⟨-, hlen, hwpos, -⟩ := hW
  rw [← hlen] at hwpos
  rw [sampleHistory, sampled, ← hlen]
  exact ring_set s.win s.wpos s.rxIn hwpos

/-- Settles O39: overwriting the oldest entry of the ring and moving on is dropping it and appending RX_IN. -/
theorem windowIsTheLastSamples : Obligations.WindowIsTheLastSamples := by
  intro s t hrun hW hcross h
  obtain ⟨old, lo, hi, hc⟩ := countsAfter_exists s hW
  obtain rfl : sampled s lo hi = t :=
    Host.Outcome.next.inj ((execSample_crossing s old lo hi hrun hW hcross hc).symm.trans h)
  refine ⟨sampled_history s lo hi hW, ?_⟩
  obtain ⟨-, hlen, -⟩ := hW
  rw [sampleHistory_length, sampled, List.length_set, hlen]

end Sys2Proof.Machine
end

section
/-! ### The flip threshold in counts (R94) -/

namespace Sys2Proof.Machine

/-- Settles O41: with P_N = 4 m and H = m, `lo > hi + H` is `2 * lo > 5 * m`. -/
theorem flipThresholdInCounts : Obligations.FlipThresholdInCounts := by
  refine ⟨fun p lo hi hv hsum => ?_, fun p h32 => ?_⟩
  · obtain ⟨m, hN, -, hH, hL⟩ := winSize_quarters p hv
    rw [debounced_falls_iff, debounced_rises_iff]
    refine ⟨?_, ?_, rfl⟩
    · omega
    · omega
  · have hH : hysteresis p = 8 := by rw [hysteresis, h32]
    refine ⟨hH, ?_⟩
    rw [flipCount, h32, hH]

/-- L is more than half of P_N, and at most P_N (R94, R96). -/
theorem flipCount_bounds (p : Params) (hv : p.valid = true) : winSize p / 2 < flipCount p ∧ flipCount p ≤ winSize p := by
  obtain ⟨m, hN, hm, -, hL⟩ := winSize_quarters p hv
  omega

theorem winSize_pos (p : Params) : 0 < winSize p := Nat.two_pow_pos _

theorem winSize_even (p : Params) (hv : p.valid = true) : winSize p % 2 = 0 := by
  obtain ⟨m, hN, -⟩ := winSize_quarters p hv
  omega

/-- The counts are those of the samples in order of age (R31). -/
theorem sampleHistory_counts (s : State) (hW : WindowLegal s) :
    (sampleHistory s).count true = s.histHi ∧ (sampleHistory s).count false = s.histLo := by
  obtain ⟨-, hlen, -, hsum, hcnt⟩ := hW
  have hhi := sampleHistory_count s
  have htotal := List.count_true_add_count_false (sampleHistory s)
  rw [sampleHistory_length] at htotal
  omega

/-- The window flips the level: it holds the other value at least L times (R94). -/
def flips (p : Params) (level : Bool) (window : List Bool) : Bool :=
  decide (flipCount p ≤ window.count (!level))

/-- The new level of R90 is the old one, flipped when the window flips it (R94). -/
theorem debounced_eq_flips (s : State) (level : Bool) (hW : WindowLegal s) :
    debounced level s.histLo s.histHi (hysteresis s.p) = (level ^^ flips s.p level (sampleHistory s)) := by
  obtain ⟨hhi, hlo⟩ := sampleHistory_counts s hW
  obtain ⟨-, -, -, hsum, -⟩ := hW
  obtain ⟨hthreshold, -⟩ := flipThresholdInCounts
  obtain ⟨hfall, hrise, -⟩ := hthreshold s.p s.histLo s.histHi s.par.property hsum
  cases level with
  | true =>
    refine Bool.not_inj (Bool.coe_false_iff_false.mp (hfall.trans ?_))
    simp [flips, hlo]
  | false =>
    refine Bool.eq_iff_iff.mpr (hrise.trans ?_)
    simp [flips, hhi]

end Sys2Proof.Machine
end

section
/-! ### Runs of SAMPLEs that are all crossings (R86, R88, R90) -/

namespace Sys2Proof.Machine

/-- A running block with a legal window, where the next SAMPLE is a crossing and so is every SAMPLE after it (R87). -/
structure CrossesEachSample (s : State) : Prop where
  running : s.halted = false
  window : WindowLegal s
  period : s.elapsed = s.p.samplePeriodUs

theorem sampled_crossesEachSample (s : State) (old : Bool) (lo hi : Nat) (hs : CrossesEachSample s)
    (hc : CountsAfter s old lo hi) : CrossesEachSample (sampled s lo hi) := by
  obtain ⟨hrun, hW, hperiod⟩ := hs
  have hcross : s.p.samplePeriodUs ≤ s.sacc + s.elapsed := by omega
  have hsample := execSample_crossing s old lo hi hrun hW hcross hc
  obtain ⟨hsacc, hlen, hwpos, hcounts⟩ := hW
  obtain ⟨hlen', hcounts'⟩ := exec_histogramMirrors .sample s _ ⟨hlen, hcounts⟩ hsample
  have hrem : s.sacc + s.elapsed - s.p.samplePeriodUs < s.p.samplePeriodUs := by omega
  exact ⟨hrun, ⟨hrem, hlen', Nat.mod_lt _ (Nat.zero_lt_of_lt hwpos), hcounts'⟩, hperiod⟩

/-- One SAMPLE of the raw level `b`: `b` is appended to the window, and the level flips, with EDGE, when the window flips
it (R88, R90, R91). -/
theorem execSample_appends (s : State) (b : Bool) (hs : CrossesEachSample s) :
    ∃ t, execSample (driveRx s b) = .next t ∧ CrossesEachSample t ∧ t.p = s.p
      ∧ sampleHistory t = (sampleHistory s).tail ++ [b]
      ∧ t.level = (s.level ^^ flips s.p s.level (sampleHistory t))
      ∧ t.edge = flips s.p s.level (sampleHistory t) := by
  have hd : CrossesEachSample (driveRx s b) := ⟨hs.running, hs.window, hs.period⟩
  have hcross : s.p.samplePeriodUs ≤ s.sacc + s.elapsed := by rw [hs.period]; exact Nat.le_add_left _ _
  obtain ⟨old, lo, hi, hc⟩ := countsAfter_exists (driveRx s b) hd.window
  have ht := sampled_crossesEachSample (driveRx s b) old lo hi hd hc
  have hlevel := debounced_eq_flips (sampled (driveRx s b) lo hi) s.level ht.window
  refine ⟨_, execSample_crossing (driveRx s b) old lo hi hd.running hd.window hcross hc, ht, rfl,
    sampled_history (driveRx s b) lo hi hd.window, hlevel, ?_⟩
  exact (congrArg (edgeFlag s.level) hlevel).trans (edgeFlag_xor _ _)

theorem sampleLine_concat (bs : List Bool) (b : Bool) (s t u : State) (hbs : sampleLine bs s = .next t)
    (hb : execSample (driveRx t b) = .next u) : sampleLine (bs ++ [b]) s = .next u := by
  induction bs generalizing s with
  | nil =>
    obtain rfl : s = t := Host.Outcome.next.inj hbs
    simp only [List.nil_append, sampleLine, hb]
  | cons c bs ih =>
    rw [List.cons_append, sampleLine]
    rw [sampleLine] at hbs
    rcases hc : execSample (driveRx s c) with r | f | e
    · rw [hc] at hbs
      exact ih r hbs
    · simp [hc] at hbs
    · simp [hc] at hbs

/-- The last P_N samples after the raw levels `bs` (R85). -/
def historyAfter (s : State) (bs : List Bool) : List Bool := (sampleHistory s ++ bs).drop bs.length

/-- SAMPLEs of the raw levels `bs` lead from `s` to `t`, all of them crossings. -/
structure SampledBy (s : State) (bs : List Bool) (t : State) : Prop where
  run : sampleLine bs s = .next t
  crosses : CrossesEachSample t
  params : t.p = s.p
  history : sampleHistory t = historyAfter s bs

theorem SampledBy.nil (s : State) (hs : CrossesEachSample s) : SampledBy s [] s :=
  ⟨rfl, hs, rfl, (List.append_nil _).symm⟩

theorem SampledBy.concat {s t : State} {bs : List Bool} (h : SampledBy s bs t) (b : Bool) :
    ∃ u, SampledBy s (bs ++ [b]) u
      ∧ u.level = (t.level ^^ flips s.p t.level (historyAfter s (bs ++ [b])))
      ∧ u.edge = flips s.p t.level (historyAfter s (bs ++ [b])) := by
  obtain ⟨u, hsample, hu, hp, hhist, hlevel, hedge⟩ := execSample_appends t b h.crosses
  have hne : bs.length < (sampleHistory s ++ bs).length := by
    obtain ⟨-, hlen, -⟩ := h.crosses.window
    have hpos := winSize_pos t.p
    rw [← sampleHistory_length, h.history, historyAfter, List.length_drop] at hlen
    omega
  have hafter : sampleHistory u = historyAfter s (bs ++ [b]) := by
    rw [hhist, h.history, historyAfter, historyAfter, List.tail_drop, List.length_append, ← List.append_assoc,
      List.length_singleton, List.drop_append_of_le_length hne]
  rw [hafter, h.params] at hlevel hedge
  exact ⟨u, ⟨sampleLine_concat bs b s t u h.run hsample, hu, hp.trans h.params, hafter⟩, hlevel, hedge⟩

theorem sampleHistory_of_uniform (s : State) (v : Bool) (hW : WindowLegal s)
    (hwin : s.win = List.replicate (winSize s.p) v) : sampleHistory s = List.replicate (winSize s.p) v := by
  obtain ⟨-, -, hwpos, -⟩ := hW
  rw [sampleHistory, hwin, List.drop_replicate, List.take_replicate, List.replicate_append_replicate]
  congr 1
  omega

end Sys2Proof.Machine
end

section
/-! ### The debounce latency (R95) -/

namespace Sys2Proof.Machine

/-- Of the last `size` samples, those after the change are the other value and the rest the first one. -/
theorem count_heldLine (size n : Nat) (v : Bool) :
    ((List.replicate size v ++ List.replicate n (!v)).drop n).count v = size - n
    ∧ ((List.replicate size v ++ List.replicate n (!v)).drop n).count (!v) = min n size := by
  have hlast : n - (n - size) = min n size := by omega
  rw [List.drop_append, List.drop_replicate, List.length_replicate, List.drop_replicate, hlast]
  simp [List.count_append, List.count_replicate]

/-- What a held line has made of LEVEL after `n` samples (R95). -/
def heldLevel (p : Params) (v : Bool) (n : Nat) : Bool := if n < flipCount p then v else !v

/-- The window after `n` samples of a held line flips the level of one sample before only at the L-th. -/
theorem flips_heldLine (p : Params) (hv : p.valid = true) (v : Bool) (n : Nat) :
    flips p (heldLevel p v n) ((List.replicate (winSize p) v ++ List.replicate (n + 1) (!v)).drop (n + 1))
      = decide (n + 1 = flipCount p) := by
  obtain ⟨hhalf, hle⟩ := flipCount_bounds p hv
  obtain ⟨hfirst, hother⟩ := count_heldLine (winSize p) (n + 1) v
  rw [flips, decide_eq_decide, heldLevel]
  by_cases hn : n < flipCount p
  · rw [if_pos hn, hother]
    omega
  · rw [if_neg hn, Bool.not_not, hfirst]
    omega

theorem heldLevel_succ (p : Params) (v : Bool) (n : Nat) :
    heldLevel p v (n + 1) = (heldLevel p v n ^^ decide (n + 1 = flipCount p)) := by
  unfold heldLevel
  rcases lt_trichotomy (n + 1) (flipCount p) with hlt | heq | hgt
  · simp [hlt, hlt.ne, Nat.lt_of_succ_lt hlt]
  · simp [← heq]
  · simp [hgt.ne', Nat.lt_asymm hgt, Nat.not_lt.mpr (Nat.le_of_lt_succ hgt)]

theorem heldLine_step (s t : State) (v : Bool) (n : Nat) (hW : WindowLegal s)
    (hwin : s.win = List.replicate (winSize s.p) v) (h : SampledBy s (List.replicate n (!v)) t)
    (hlevel : t.level = heldLevel s.p v n) :
    ∃ u, SampledBy s (List.replicate (n + 1) (!v)) u ∧ u.level = heldLevel s.p v (n + 1)
      ∧ u.edge = decide (n + 1 = flipCount s.p) := by
  obtain ⟨u, hu, hulevel, huedge⟩ := h.concat (!v)
  have hflips : flips s.p (heldLevel s.p v n) (historyAfter s (List.replicate (n + 1) (!v)))
      = decide (n + 1 = flipCount s.p) := by
    rw [historyAfter, sampleHistory_of_uniform s v hW hwin, List.length_replicate]
    exact flips_heldLine s.p s.par.property v n
  rw [hlevel, ← List.replicate_succ', hflips] at hulevel huedge
  rw [← List.replicate_succ'] at hu
  exact ⟨u, hu, hulevel.trans (heldLevel_succ s.p v n).symm, huedge⟩

/-- Settles O42: sample by sample the other value's count grows by one, so it reaches L at the L-th; after the flip the
first value's count is below L and stays there. -/
theorem debounceLatencyIsTheFlipCount : Obligations.DebounceLatencyIsTheFlipCount := by
  intro s v n hrun hW hperiod hwin hlevel
  have hbefore : ∃ t, SampledBy s (List.replicate n (!v)) t ∧ t.level = heldLevel s.p v n := by
    induction n with
    | zero => exact ⟨s, .nil s ⟨hrun, hW, hperiod⟩, hlevel⟩
    | succ n ih =>
      obtain ⟨t, ht, htlevel⟩ := ih
      obtain ⟨u, hu, hulevel, -⟩ := heldLine_step s t v n hW hwin ht htlevel
      exact ⟨u, hu, hulevel⟩
  obtain ⟨t, ht, htlevel⟩ := hbefore
  obtain ⟨u, hu, hulevel, huedge⟩ := heldLine_step s t v n hW hwin ht htlevel
  exact ⟨u, hu.run, hulevel, huedge⟩

end Sys2Proof.Machine
end

section
/-! ### Alternating samples (R96) -/

namespace Sys2Proof.Machine

theorem alternating_drop (n k : Nat) (b : Bool) : ∃ c, (alternating n b).drop k = alternating (n - k) c := by
  induction k generalizing n b with
  | zero => exact ⟨b, rfl⟩
  | succ k ih =>
    cases n with
    | zero => exact ⟨b, by simp [alternating]⟩
    | succ n =>
      obtain ⟨c, hc⟩ := ih n (!b)
      exact ⟨c, by rw [alternating, List.drop_succ_cons, hc, Nat.add_sub_add_right]⟩

theorem alternating_count_le (n : Nat) (b c : Bool) : (alternating n b).count c ≤ (n + 1) / 2 := by
  rw [alternating_count]
  split <;> omega

/-- At most half of the last `size` samples, an even number, are the value that only the alternating ones have. -/
theorem count_alternatingLine_le (size n : Nat) (v b : Bool) (heven : size % 2 = 0) :
    ((List.replicate size v ++ alternating n b).drop n).count (!v) ≤ size / 2 := by
  obtain ⟨c, hc⟩ := alternating_drop n (n - size) b
  have hle := alternating_count_le (n - (n - size)) c (!v)
  have hfirst : (List.replicate (size - n) v).count (!v) = 0 := by simp [List.count_replicate]
  rw [List.drop_append, List.length_replicate, List.drop_replicate, hc, List.count_append, hfirst]
  omega

/-- A window that holds the other value at most P_N / 2 times does not flip the level (R94, R96). -/
theorem flips_of_count_le_half (p : Params) (hv : p.valid = true) (level : Bool) (window : List Bool)
    (h : window.count (!level) ≤ winSize p / 2) : flips p level window = false := by
  obtain ⟨hhalf, -⟩ := flipCount_bounds p hv
  rw [flips, decide_eq_false_iff_not]
  omega

theorem alternatingLine_step (s t : State) (v b : Bool) (n : Nat) (hW : WindowLegal s)
    (hwin : s.win = List.replicate (winSize s.p) v) (h : SampledBy s (alternating n b) t) (hlevel : t.level = v) :
    ∃ u, SampledBy s (alternating (n + 1) b) u ∧ u.level = v ∧ u.edge = false := by
  obtain ⟨u, hu, hulevel, huedge⟩ := h.concat (if n % 2 = 0 then b else !b)
  rw [← alternating_succ] at hu hulevel huedge
  have hflips : flips s.p v (historyAfter s (alternating (n + 1) b)) = false := by
    refine flips_of_count_le_half s.p s.par.property v _ ?_
    rw [historyAfter, sampleHistory_of_uniform s v hW hwin, alternating_length]
    exact count_alternatingLine_le _ _ v b (winSize_even s.p s.par.property)
  rw [hlevel, hflips] at hulevel huedge
  exact ⟨u, hu, hulevel.trans (Bool.xor_false v), huedge⟩

theorem alternatingLine_keepsLevel (s : State) (v b : Bool) (n : Nat) (hs : CrossesEachSample s)
    (hwin : s.win = List.replicate (winSize s.p) v) (hlevel : s.level = v) :
    ∃ t, SampledBy s (alternating n b) t ∧ t.level = v := by
  induction n with
  | zero => exact ⟨s, .nil s hs, hlevel⟩
  | succ n ih =>
    obtain ⟨t, ht, htlevel⟩ := ih
    obtain ⟨u, hu, hulevel, -⟩ := alternatingLine_step s t v b n hs.window hwin ht htlevel
    exact ⟨u, hu, hulevel⟩

/-- The next of an even number of alternating samples keeps the window alternating. -/
theorem alternating_tail_concat (n : Nat) (b : Bool) (hpos : 0 < n) (heven : n % 2 = 0) :
    (alternating n b).tail ++ [b] = alternating n (!b) := by
  obtain ⟨k, rfl⟩ : ∃ k, n = k + 1 := ⟨n - 1, by omega⟩
  have hodd : ¬ k % 2 = 0 := by omega
  rw [alternating, List.tail_cons, alternating_succ, if_neg hodd, Bool.not_not]

theorem alternating_count_half (n : Nat) (b c : Bool) (heven : n % 2 = 0) : (alternating n b).count c = n / 2 := by
  rw [alternating_count]
  split <;> omega

/-- Settles O43: the other value fills at most half the window, and half of it once all its samples alternate. -/
theorem alternatingSamplesGiveNoEdge : Obligations.AlternatingSamplesGiveNoEdge := by
  refine ⟨fun s v b n hrun hW hperiod hwin hlevel => ?_, fun s b hrun hW hperiod hhist => ?_⟩
  · obtain ⟨t, ht, htlevel⟩ := alternatingLine_keepsLevel s v b n ⟨hrun, hW, hperiod⟩ hwin hlevel
    obtain ⟨u, hu, hulevel, huedge⟩ := alternatingLine_step s t v b n hW hwin ht htlevel
    exact ⟨u, hu.run, hulevel, huedge⟩
  · obtain ⟨t, hsample, ht, hp, hthist, htlevel, htedge⟩ := execSample_appends s b ⟨hrun, hW, hperiod⟩
    have heven := winSize_even s.p s.par.property
    rw [hhist, alternating_tail_concat _ b (winSize_pos s.p) heven] at hthist
    have hhalf (c : Bool) : (sampleHistory t).count c = winSize s.p / 2 := by
      rw [hthist, alternating_count_half _ _ c heven]
    obtain ⟨hhi, hlo⟩ := sampleHistory_counts t ht.window
    have hflips := flips_of_count_le_half s.p s.par.property s.level (sampleHistory t) (hhalf _).le
    rw [hflips] at htlevel htedge
    exact ⟨t, hsample, hhi.symm.trans (hhalf true), hlo.symm.trans (hhalf false),
      htlevel.trans (Bool.xor_false s.level), htedge⟩

end Sys2Proof.Machine
end

section
/-! ### The frames of the receiver's commands, and the transmit side (R97, R100, R119, R123) -/

namespace Sys2Proof.Machine

/-- SAMPLE writes the window at WPOS only (R88). -/
theorem execSample_win_other (s t : State) (h : execSample s = .next t) (j : Nat) (hj : j ≠ s.wpos) :
    t.win[j]? = s.win[j]? := by
  rcases (execSample_next s t).mp h with ⟨-, rfl⟩ | ⟨-, -, ht⟩ | ⟨-, -, rfl⟩
  · rfl
  · obtain ⟨-, -, hwin, -⟩ := takeSample_registers _ t ht
    rw [hwin, List.getElem?_set_ne hj.symm]
  · rfl

/-- Settles O56: the frame of every command, and SAMPLE's one window bit. -/
theorem receiveCommandsFrame : Obligations.ReceiveCommandsFrame :=
  ⟨fun s t h => ⟨execSample_frame s t h, execSample_win_other s t h⟩, execDecode_frame, execPoll_frame,
    fun s t => (execNop_next s t).mp⟩

theorem takeSample_withTransmitterOf (r s t : State) (h : takeSample s = .next t) :
    takeSample (withTransmitterOf r s) = .next (withTransmitterOf r t) := by
  obtain ⟨s1, hevict, rfl⟩ := (takeSample_next s t).mp h
  have hevict' : evictOldest (withTransmitterOf r s) = .ok (withTransmitterOf r s1) := by
    rw [evictOldest_ok] at hevict ⊢
    exact hevict.imp (fun ⟨hold, hb, he⟩ => ⟨hold, hb, congrArg (withTransmitterOf r) he⟩)
      (fun ⟨hold, hb, he⟩ => ⟨hold, hb, congrArg (withTransmitterOf r) he⟩)
  refine (takeSample_next _ _).mpr ⟨_, hevict', ?_⟩
  rw [insertNewest_eq, insertNewest_eq]
  rfl

theorem execSample_withTransmitterOf (r s t : State) (h : execSample s = .next t) :
    execSample (withTransmitterOf r s) = .next (withTransmitterOf r t) := by
  refine (execSample_next _ _).mpr ?_
  rcases (execSample_next s t).mp h with ⟨hhalt, rfl⟩ | ⟨hrun, hcross, ht⟩ | ⟨hrun, hshort, rfl⟩
  · exact .inl ⟨hhalt, rfl⟩
  · exact .inr (.inl ⟨hrun, hcross, takeSample_withTransmitterOf r _ t ht⟩)
  · exact .inr (.inr ⟨hrun, hshort, rfl⟩)

theorem execDecode_withTransmitterOf (r s t : State) (h : execDecode s = .next t) :
    execDecode (withTransmitterOf r s) = .next (withTransmitterOf r t) := by
  refine (execDecode_next _ _).mpr ?_
  exact ((execDecode_next s t).mp h).imp (.imp_right (congrArg _)) (.imp_right (congrArg _))

theorem polled_withTransmitterOf (r s : State) : polled (withTransmitterOf r s) = withTransmitterOf r (polled s) := by
  cases hovf : s.ovf <;> simp [polled, withTransmitterOf, hovf]

theorem execPoll_withTransmitterOf (r s t : State) (h : execPoll s = .next t) :
    execPoll (withTransmitterOf r s) = .next (withTransmitterOf r t) := by
  refine (execPoll_next _ _).mpr ?_
  rw [polled_withTransmitterOf]
  exact ((execPoll_next s t).mp h).imp (.imp_right (congrArg _)) (.imp_right (congrArg _))

/-- Settles O59: every operation of the receiver commutes with putting in another state's transmit registers. -/
theorem receiverIgnoresTheTransmitSide : Obligations.ReceiverIgnoresTheTransmitSide := by
  intro r s t i hi h
  rcases hi with rfl | rfl | rfl
  · exact execSample_withTransmitterOf r s t h
  · exact execDecode_withTransmitterOf r s t h
  · exact execPoll_withTransmitterOf r s t h

end Sys2Proof.Machine
end

/-! ## 44_frame_decoder.md: DECODE, one invocation at a time and over a whole frame -/

section
/-! ### One DECODE, from Idle and in an active state (R102 to R112) -/

namespace Sys2Proof.Machine

/-- Settles O44: Idle either enters Start, on a falling edge, or writes its own registers back. -/
theorem idleDecodeWaitsForAFallingEdge : Obligations.IdleDecodeWaitsForAFallingEdge := by
  intro s hrun hidle
  have hdecode : exec .decode s = .next (writeFrame s (idleFrame s)) := execDecode_idle s hrun hidle
  refine ⟨fun hedge hlevel => ?_, fun hno => ?_⟩
  · rw [hdecode, idleFrame, if_pos ⟨hedge, hlevel⟩]
    rfl
  · have hnofall : ¬ (s.edge = true ∧ s.level = false) := by
      rintro ⟨hedge, hlevel⟩
      simp [hedge, hlevel] at hno
    rw [hdecode, idleFrame, if_neg hnofall]
    rfl

/-- An active DECODE writes the variables that the frame machine computes (R101). -/
theorem exec_decode_writes (s : State) (v : FrameVars) (hrun : s.halted = false) (hp : s.pos ≠ 0)
    (hv : activeFrame s = v) : exec .decode s = .next (writeFrame s v) :=
  hv ▸ execDecode_active s hrun hp

/-- Settles O45: neither test fires, so only the timer moves. -/
theorem activeDecodeBetweenTestsOnlyTimes : Obligations.ActiveDecodeBetweenTestsOnlyTimes := by
  intro s hrun hp hbetween
  have hfull : s.bt + s.elapsed < s.p.baudUs := by omega
  exact exec_decode_writes s _ hrun hp (activeFrame_between s hp (hbetween.symm.imp And.left And.right) hfull)

/-- A DECODE that may reach the midpoint of its cell does not reach the cell's full period as well (R109). -/
theorem bt_elapsed_lt_of_half_false (s : State) (hL : Legal s) (hhalf : s.half = false) :
    s.bt + s.elapsed < s.p.baudUs := by
  obtain ⟨-, -, -, htb, -, -, ⟨-, -, -, hbefore, -⟩, -⟩ := hL
  obtain ⟨-, hel, -⟩ := elapsed_bounds s htb
  have := hbefore hhalf
  omega

/-- Settles O46: the level at the start midpoint decides, short of the full period. -/
theorem startMidpointChecksTheStartBit : Obligations.StartMidpointChecksTheStartBit := by
  intro s hrun hL h1 hhalf hmid
  have hp : s.pos ≠ 0 := by omega
  refine ⟨fun hlevel => ?_, fun hlevel => ?_⟩
  · exact exec_decode_writes s _ hrun hp (activeFrame_startError s h1 hhalf hmid hlevel)
  · have hstart := activeFrame_start s h1 hhalf hmid (bt_elapsed_lt_of_half_false s hL hhalf) hlevel
    rw [← h1] at hstart
    exact exec_decode_writes s _ hrun hp hstart

theorem shiftIn_toNat (shift : Byte) (level : Bool) :
    (shiftIn shift level).toNat = (shift.toNat * 2 + bitValue level) % 256 := by
  simp [shiftIn]

/-- Settles O47: the level is shifted in, short of the full period, so POS stays. -/
theorem dataMidpointShiftsTheLevelIn : Obligations.DataMidpointShiftsTheLevelIn := by
  intro s hrun hL h2 h9 hhalf hmid
  have hdata := activeFrame_data s h2 h9 hhalf hmid (bt_elapsed_lt_of_half_false s hL hhalf)
  exact ⟨_, shiftIn_toNat s.shift s.level, exec_decode_writes s _ hrun (by omega) hdata⟩

/-- Settles O48: the stop midpoint ends the frame, and Idle is cleared in the same DECODE. -/
theorem stopMidpointEndsTheFrame : Obligations.StopMidpointEndsTheFrame := by
  intro s hrun h10 hhalf hmid
  exact exec_decode_writes s _ hrun (by omega) (activeFrame_stop s h10.ge hhalf hmid)

/-- Settles O49: with the midpoint handled before, only the full-period test fires. -/
theorem fullPeriodCarriesTheRemainderOver : Obligations.FullPeriodCarriesTheRemainderOver := by
  intro s hrun hp hhalf hfull
  exact exec_decode_writes s _ hrun hp (activeFrame_full s hp (.inl hhalf) hfull)

end Sys2Proof.Machine
end

section
/-! ### The frame's time (R113) -/

namespace Sys2Proof.Machine

/-- The midpoint action keeps POS, or ends the frame (R105 to R107). -/
theorem cellMidpoint_pos (p : Params) (level : Bool) (v : FrameVars) :
    (cellMidpoint p level v).pos = v.pos ∨ (cellMidpoint p level v).pos = 0 := by
  unfold cellMidpoint
  split
  · cases level <;> simp only [startMidpoint, dataMidpoint, stopMidpoint] <;> split_ifs <;> simp
  · exact .inl rfl

/-- The full-period test takes from BT what it adds to POS, and ends no frame (R108). -/
theorem cellFullPeriod_phase (p : Params) (v : FrameVars) (hp : (cellFullPeriod p v).pos ≠ 0) :
    v.pos ≠ 0
    ∧ ((cellFullPeriod p v).pos - 1) * p.baudUs + (cellFullPeriod p v).bt = (v.pos - 1) * p.baudUs + v.bt := by
  unfold cellFullPeriod at hp ⊢
  by_cases hfull : atFullPeriod p v.pos v.bt = true
  · obtain ⟨hpos, hbt⟩ : v.pos ≠ 0 ∧ p.baudUs ≤ v.bt := by simpa [atFullPeriod] using hfull
    obtain ⟨k, hk⟩ : ∃ k, v.pos = k + 1 := ⟨v.pos - 1, by omega⟩
    rw [if_pos hfull]
    refine ⟨hpos, ?_⟩
    simp only [hk, Nat.add_sub_cancel, Nat.succ_mul]
    omega
  · rw [if_neg hfull] at hp ⊢
    exact ⟨hp, rfl⟩

/-- An active DECODE that ends no frame adds ELAPSED to the frame's time (R113). -/
theorem framePhase_activeFrame (s : State) (hp : (activeFrame s).pos ≠ 0) :
    framePhase (writeFrame s (activeFrame s)) = framePhase s + s.elapsed := by
  unfold activeFrame at hp ⊢
  rw [clearIdle_pos] at hp
  rw [clearIdle_of_active _ hp]
  obtain ⟨hmid, hphase⟩ := cellFullPeriod_phase _ _ hp
  have hpos := (cellMidpoint_pos _ _ _).resolve_right hmid
  rw [hpos, cellMidpoint_bt] at hphase
  rw [framePhase, framePhase, Nat.add_assoc]
  exact hphase

/-- Settles O50: the only test that moves POS moves one baud period from BT to it. -/
theorem frameTimeHasNoDrift : Obligations.FrameTimeHasNoDrift := by
  intro s t hrun hp h ht
  rw [exec_decode_writes s _ hrun hp rfl, Host.Outcome.next.injEq] at h
  subst h
  exact framePhase_activeFrame s ht

end Sys2Proof.Machine
end

section
/-! ### A frame in flight: the DECODEs that report nothing (R103 to R109, R113) -/

namespace Sys2Proof.Machine

/-- The variables after an active DECODE that reports no event, by the test that fires: none, the start midpoint, a data
midpoint, the full period. -/
inductive QuietFrame (s : State) : FrameVars → Prop where
  | between (hbefore : s.half = false → 2 * (s.bt + s.elapsed) < s.p.baudUs) (hfull : s.bt + s.elapsed < s.p.baudUs) :
    QuietFrame s ⟨s.pos, s.bt + s.elapsed, s.half, s.shift, .noEvent, 0#8⟩
  | start (h1 : s.pos = 1) (hhalf : s.half = false) (hmid : s.p.baudUs ≤ 2 * (s.bt + s.elapsed))
    (hfull : s.bt + s.elapsed < s.p.baudUs) : QuietFrame s ⟨1, s.bt + s.elapsed, true, s.shift, .noEvent, 0#8⟩
  | data (h2 : 2 ≤ s.pos) (h9 : s.pos ≤ 9) (hhalf : s.half = false) (hmid : s.p.baudUs ≤ 2 * (s.bt + s.elapsed))
    (hfull : s.bt + s.elapsed < s.p.baudUs) :
    QuietFrame s ⟨s.pos, s.bt + s.elapsed, true, shiftIn s.shift s.level, .noEvent, 0#8⟩
  | full (h9 : s.pos ≤ 9) (hhalf : s.half = true) (hfull : s.p.baudUs ≤ s.bt + s.elapsed) :
    QuietFrame s ⟨s.pos + 1, s.bt + s.elapsed - s.p.baudUs, false, s.shift, .noEvent, 0#8⟩

/-- With ELAPSED at most half a baud period, an active DECODE is quiet unless it stands at a high start midpoint or at
the stop midpoint. -/
theorem activeFrame_quiet (s : State) (hd : DecoderLegal s) (hp : s.pos ≠ 0) (hel : 2 * s.elapsed ≤ s.p.baudUs)
    (hstart : s.pos = 1 → s.p.baudUs ≤ 2 * (s.bt + s.elapsed) → s.bt + s.elapsed < s.p.baudUs → s.level = false)
    (hstop : s.pos = 10 → 2 * (s.bt + s.elapsed) < s.p.baudUs) : QuietFrame s (activeFrame s) := by
  obtain ⟨h10, hbt, -, hbefore, -, hlast⟩ := hd
  cases hhalf : s.half with
  | true =>
    have h9 : s.pos ≠ 10 := fun h => by simp [hlast h] at hhalf
    by_cases hfull : s.p.baudUs ≤ s.bt + s.elapsed
    · rw [activeFrame_full s hp (.inl hhalf) hfull]
      exact .full (by omega) hhalf hfull
    · rw [activeFrame_between s hp (.inl hhalf) (by omega)]
      exact .between (by simp [hhalf]) (by omega)
  | false =>
    have hfull : s.bt + s.elapsed < s.p.baudUs := by
      have := hbefore hhalf
      omega
    by_cases hmid : s.p.baudUs ≤ 2 * (s.bt + s.elapsed)
    · by_cases h1 : s.pos = 1
      · rw [activeFrame_start s h1 hhalf hmid hfull (hstart h1 hmid hfull)]
        exact .start h1 hhalf hmid hfull
      · have h9 : s.pos ≤ 9 := by omega
        rw [activeFrame_data s (by omega) h9 hhalf hmid hfull]
        exact .data (by omega) h9 hhalf hmid hfull
    · rw [activeFrame_between s hp (.inr (by omega)) hfull]
      exact .between (fun _ => by omega) hfull

theorem QuietFrame.pos_ne_zero {s : State} {v : FrameVars} (h : QuietFrame s v) (hp : s.pos ≠ 0) : v.pos ≠ 0 := by
  cases h with
  | between => exact hp
  | start => exact Nat.one_ne_zero
  | data => exact hp
  | full => exact Nat.succ_ne_zero _

theorem QuietFrame.event {s : State} {v : FrameVars} (h : QuietFrame s v) : v.kind = .noEvent ∧ v.data = 0#8 := by
  cases h <;> exact ⟨rfl, rfl⟩

theorem QuietFrame.decoderLegal {s : State} {v : FrameVars} (h : QuietFrame s v) (hd : DecoderLegal s)
    (hp : s.pos ≠ 0) (hel : 2 * s.elapsed ≤ s.p.baudUs) : DecoderLegal (writeFrame s v) := by
  obtain ⟨h10, hbt, -, -, hafter, hlast⟩ := hd
  cases h with
  | between hbefore hfull =>
    refine (writeFrame_active_legal s _ _ s.half _ hp h10 hfull hbefore (fun hhalf => ?_) hlast).1
    have := hafter hhalf
    omega
  | start h1 hhalf hmid hfull =>
    exact (writeFrame_active_legal s 1 _ true _ (by omega) (by omega) hfull nofun (fun _ => hmid) (by omega)).1
  | data h2 h9 hhalf hmid hfull =>
    exact (writeFrame_active_legal s _ _ true _ hp h10 hfull nofun (fun _ => hmid) (by omega)).1
  | full h9 hhalf hfull =>
    exact (writeFrame_active_legal s _ _ false _ (by omega) (by omega) (by omega) (fun _ => by omega) nofun
      fun _ => rfl).1

/-- A running block, of parameters `p`, with a frame in flight whose time is `t` (R113). -/
structure FrameInFlight (p : Params) (t : Nat) (s : State) : Prop where
  params : s.p = p
  running : s.halted = false
  legal : DecoderLegal s
  active : s.pos ≠ 0
  phase : framePhase s = t

/-- Start with a zero timer is a frame at time 0 (R102). -/
theorem FrameInFlight.atStart (s : State) (hrun : s.halted = false) (h1 : s.pos = 1) (hbt : s.bt = 0)
    (hhalf : s.half = false) : FrameInFlight s.p 0 s := by
  have hbaud := s.constraints.baud_ge
  refine ⟨rfl, hrun, ?_, by omega, by simp [framePhase, h1, hbt]⟩
  exact ⟨by omega, by omega, by omega, fun _ => by omega, by simp [hhalf], by omega⟩

/-- What DECODE reads from POLL and SAMPLE is no part of the frame (R100). -/
theorem FrameInFlight.withInputs {p : Params} {t : Nat} {s : State} (h : FrameInFlight p t s) (elapsed : Nat)
    (level : Bool) : FrameInFlight p t { s with elapsed := elapsed, level := level } :=
  ⟨h.params, h.running, h.legal, h.active, h.phase⟩

section
variable {p : Params} {t : Nat} {s : State} (h : FrameInFlight p t s)
include h

/-- The frame's time in cells and in the cell: POS - 1 whole periods and BT, short of a period (R36, R113). -/
theorem FrameInFlight.time_eq : (s.pos - 1) * p.baudUs + s.bt = t ∧ s.bt < p.baudUs := by
  obtain ⟨rfl, -, ⟨-, hbt, -⟩, -, hphase⟩ := h
  exact ⟨hphase, hbt⟩

/-- Until the cell's full period, the time of a DECODE is within the cell that POS names (R113). -/
theorem FrameInFlight.cell_eq (e : Nat) (hfull : s.bt + e < p.baudUs) : (t + e) / p.baudUs = s.pos - 1 := by
  obtain ⟨htime, -⟩ := h.time_eq
  have hbaud : 0 < p.baudUs := Nat.zero_lt_of_lt hfull
  rw [← htime, Nat.add_assoc, Nat.mul_comm, Nat.mul_add_div hbaud, Nat.div_eq_of_lt hfull, Nat.add_zero]

/-- Before the stop midpoint a DECODE is quiet and adds ELAPSED to the frame's time, if the line is low at the start
midpoint. -/
theorem FrameInFlight.decode_quiet (hel : 2 * s.elapsed ≤ p.baudUs) (hstop : 2 * (t + s.elapsed) < 19 * p.baudUs)
    (hstart : p.baudUs ≤ 2 * (t + s.elapsed) → t + s.elapsed < p.baudUs → s.level = false) :
    QuietFrame s (activeFrame s) ∧ FrameInFlight p (t + s.elapsed) (writeFrame s (activeFrame s)) := by
  obtain ⟨htime, -⟩ := h.time_eq
  obtain ⟨rfl, hrun, hd, hp, hphase⟩ := h
  have hquiet : QuietFrame s (activeFrame s) := by
    refine activeFrame_quiet s hd hp hel (fun h1 hmid hfull => ?_) (fun h10 => ?_)
    · rw [h1] at htime
      exact hstart (by omega) (by omega)
    · rw [h10] at htime
      omega
  have hpos := hquiet.pos_ne_zero hp
  exact ⟨hquiet, rfl, hrun, hquiet.decoderLegal hd hp hel, hpos, hphase ▸ framePhase_activeFrame s hpos⟩

/-- A frame's time short of half a period stands in the start cell, its midpoint still to come. -/
theorem FrameInFlight.before_start_midpoint (hbefore : 2 * t < p.baudUs) :
    s.pos = 1 ∧ s.half = false ∧ s.bt = t := by
  obtain ⟨htime, -⟩ := h.time_eq
  obtain ⟨rfl, -, ⟨-, -, -, -, hafter, -⟩, hp, -⟩ := h
  have h1 : s.pos - 1 = 0 := by
    by_contra hne
    have := Nat.le_mul_of_pos_left s.p.baudUs (Nat.pos_of_ne_zero hne)
    omega
  rw [h1] at htime
  refine ⟨by omega, ?_, by omega⟩
  rw [← Bool.not_eq_true]
  intro hhalf
  have := hafter hhalf
  omega

/-- The last quiet DECODE before the stop midpoint stands in the stop cell. -/
theorem FrameInFlight.before_stop_midpoint (hge : 9 * p.baudUs ≤ t) :
    s.pos = 10 ∧ s.half = false ∧ 9 * p.baudUs + s.bt = t := by
  obtain ⟨htime, hbt⟩ := h.time_eq
  obtain ⟨rfl, -, ⟨h10, -, -, -, -, hlast⟩, -, -⟩ := h
  have hpos : s.pos = 10 := by
    by_contra hne
    have : (s.pos - 1) * s.p.baudUs ≤ 8 * s.p.baudUs := Nat.mul_le_mul_right _ (by omega)
    omega
  refine ⟨hpos, hlast hpos, ?_⟩
  rw [← htime, hpos]

end

end Sys2Proof.Machine
end

section
/-! ### A whole frame on the line (R114 to R116) -/

namespace Sys2Proof.Machine

/-- DECODEs of a line that keep an invariant report nothing, and then the last one reports its event. -/
theorem decodeLine_quiet_then (line : Nat → Bool) (Inv : Nat → State → Prop) (T e : Nat) (ev : EventKind × Byte)
    (es : List Nat)
    (hquiet : ∀ t s, ∀ x ∈ es, t + x ≤ T → Inv t s → ∃ u, decodeWith x (line (t + x)) s = .next u
      ∧ (u.eventKind, u.eventData) = (.noEvent, 0#8) ∧ Inv (t + x) u)
    (hlast : ∀ s, Inv T s → ∃ u, decodeWith e (line (T + e)) s = .next u ∧ (u.eventKind, u.eventData) = ev)
    (t : Nat) (s : State) (hT : t + es.sum = T) (hs : Inv t s) :
    decodeLine line t (es ++ [e]) s = List.replicate es.length (.noEvent, 0#8) ++ [ev] := by
  induction es generalizing t s with
  | nil =>
    obtain rfl : t = T := hT
    obtain ⟨u, hu, hev⟩ := hlast s hs
    simp [decodeLine, hu, hev]
  | cons x es ih =>
    rw [List.sum_cons] at hT
    obtain ⟨u, hu, hev, hinv⟩ := hquiet t s x List.mem_cons_self (by omega) hs
    have hrest := ih (fun t s y hy => hquiet t s y (List.mem_cons_of_mem x hy)) (t + x) u (by omega) hinv
    simp [decodeLine, hu, hev, hrest, List.replicate_succ]

/-- `FrameInFlight.decode_quiet` for one DECODE of a line. -/
theorem FrameInFlight.decodeWith_quiet {p : Params} {t : Nat} {s : State} (h : FrameInFlight p t s) (e : Nat)
    (level : Bool) (hel : 2 * e ≤ p.baudUs) (hstop : 2 * (t + e) < 19 * p.baudUs)
    (hstart : p.baudUs ≤ 2 * (t + e) → t + e < p.baudUs → level = false) :
    ∃ u, decodeWith e level s = .next u ∧ (u.eventKind, u.eventData) = (.noEvent, 0#8) ∧ FrameInFlight p (t + e) u
      ∧ ∃ v, QuietFrame { s with elapsed := e, level := level } v
        ∧ u = writeFrame { s with elapsed := e, level := level } v := by
  obtain ⟨hquiet, hflight⟩ := (h.withInputs e level).decode_quiet hel hstop hstart
  obtain ⟨hkind, hdata⟩ := hquiet.event
  exact ⟨_, execDecode_active _ h.running h.active, Prod.ext hkind hdata, hflight, _, hquiet, rfl⟩

/-- At the stop midpoint DECODE reports by the level, and the byte is SHIFT (R107). -/
theorem FrameInFlight.decodeWith_stop {p : Params} {t : Nat} {s : State} (h : FrameInFlight p t s) (e : Nat)
    (level : Bool) (hel : 2 * e ≤ p.baudUs) (hmid : 19 * p.baudUs ≤ 2 * (t + e)) :
    ∃ u, decodeWith e level s = .next u ∧ (u.eventKind, u.eventData)
      = (if level then .byteDecoded else .stopBitError, if level then s.shift else 0#8) := by
  obtain ⟨h10, hhalf, htime⟩ := h.before_stop_midpoint (by omega)
  obtain ⟨rfl, hrun, -⟩ := h
  have hmid : s.p.baudUs ≤ 2 * (s.bt + e) := by omega
  exact ⟨_, stopMidpointEndsTheFrame { s with elapsed := e, level := level } hrun h10 hhalf hmid, rfl⟩

/-- Settles O54: the line before the tested midpoint is quiet, whatever the data cells hold; the level there reports. -/
theorem framingErrorsAreReported : Obligations.FramingErrorsAreReported := by
  refine ⟨fun s line es e hrun h1 hbt hhalf hbefore hmid hhigh => ?_,
    fun s line es e hrun h1 hbt hhalf hstart hstop hsmall hbefore hmid => ?_⟩
  · refine decodeLine_quiet_then line (FrameInFlight s.p) es.sum e _ es (fun t u x _ hx hu => ?_) (fun u hu => ?_) 0 s
      (Nat.zero_add _) (.atStart s hrun h1 hbt hhalf)
    · obtain ⟨w, hw, hev, hflight, -⟩ := hu.decodeWith_quiet x (line (t + x)) (by omega) (by omega) (by omega)
      exact ⟨w, hw, hev, hflight⟩
    · obtain ⟨hpos, hhalf, htime⟩ := hu.before_start_midpoint hbefore
      have herror := activeFrame_startError { u with elapsed := e, level := line (es.sum + e) } hpos hhalf
        (by rw [hu.params, htime]; exact hmid) hhigh
      exact ⟨_, exec_decode_writes _ _ hu.running hu.active herror, rfl⟩
  · have hcell (x : Nat) (hx : x ∈ es) : 2 * x ≤ s.p.baudUs := hsmall x (List.mem_cons_of_mem e hx)
    have hlow : line (es.sum + e) = false := by
      have := hsmall e List.mem_cons_self
      exact hstop _ (by omega) (by omega)
    refine decodeLine_quiet_then line (FrameInFlight s.p) es.sum e _ es (fun t u x hmem hx hu => ?_) (fun u hu => ?_)
      0 s (Nat.zero_add _) (.atStart s hrun h1 hbt hhalf)
    · obtain ⟨w, hw, hev, hflight, -⟩ :=
        hu.decodeWith_quiet x (line (t + x)) (hcell x hmem) (by omega) fun _ => hstart (t + x)
      exact ⟨w, hw, hev, hflight⟩
    · rw [hlow]
      exact hu.decodeWith_stop e false (hsmall e List.mem_cons_self) hmid

end Sys2Proof.Machine
end

section
/-! ### The byte that a frame carries (R106, R114) -/

namespace Sys2Proof.Machine

/-- Shifting in the next lower bit of a byte (R106). -/
theorem shiftIn_ushiftRight (byte : Byte) (n : Nat) : shiftIn (byte >>> (n + 1)) (byte.getLsbD n) = byte >>> n := by
  have hbit : bitValue (byte.getLsbD n) = byte.toNat >>> n % 2 := by
    rw [BitVec.getLsbD, Nat.testBit_eq_decide_div_mod_eq, Nat.shiftRight_eq_div_pow]
    rcases Nat.mod_two_eq_zero_or_one (byte.toNat / 2 ^ n) with h | h <;> simp [h, bitValue]
  have hlt : byte.toNat >>> n < 256 := (byte >>> n).isLt
  refine BitVec.eq_of_toNat_eq ?_
  rw [shiftIn_toNat, hbit, BitVec.toNat_ushiftRight, BitVec.toNat_ushiftRight, Nat.shiftRight_succ]
  omega

/-- SHIFT holds the data cells whose midpoints are past, the high bits of the frame's byte (R106): POS - 1 cells, and
one more once HALF is set, the first of them the start cell. -/
def ShiftHolds (byte : Byte) (s : State) : Prop := s.shift = byte >>> (10 - s.pos - bitValue s.half)

/-- A quiet DECODE keeps what SHIFT holds, if at a data midpoint the level is the data cell's. -/
theorem QuietFrame.shiftHolds {s : State} {v : FrameVars} (byte : Byte) (h : QuietFrame s v)
    (hread : 2 ≤ s.pos → s.pos ≤ 9 → s.bt + s.elapsed < s.p.baudUs → s.level = dataCell byte (s.pos - 1))
    (hs : ShiftHolds byte s) : ShiftHolds byte (writeFrame s v) := by
  unfold ShiftHolds at hs ⊢
  cases h with
  | between => exact hs
  | start h1 hhalf =>
    rw [h1, hhalf] at hs
    have hbefore : byte >>> 9 = 0#8 := BitVec.ushiftRight_eq_zero (by decide)
    have hafter : byte >>> 8 = 0#8 := BitVec.ushiftRight_eq_zero le_rfl
    exact (hs.trans hbefore).trans hafter.symm
  | data h2 h9 hhalf hmid hfull =>
    have hbit : 8 - (s.pos - 1) = 9 - s.pos := by omega
    have hcount : 10 - s.pos = 9 - s.pos + 1 := by omega
    rw [hhalf] at hs
    change shiftIn s.shift s.level = byte >>> (10 - s.pos - 1)
    rw [hs, hread h2 h9 hfull, dataCell, hbit, bitValue, hcount]
    exact shiftIn_ushiftRight byte _
  | full h9 hhalf hfull =>
    rw [hhalf] at hs
    have hcount : 10 - (s.pos + 1) - 0 = 10 - s.pos - 1 := by omega
    change s.shift = byte >>> (10 - (s.pos + 1) - 0)
    rw [hcount]
    exact hs

/-- Start with SHIFT cleared holds no data cell yet (R102). -/
theorem shiftHolds_atStart (byte : Byte) (s : State) (h1 : s.pos = 1) (hhalf : s.half = false)
    (hshift : s.shift = 0#8) : ShiftHolds byte s := by
  have hnone : byte >>> 9 = 0#8 := BitVec.ushiftRight_eq_zero (by decide)
  rw [ShiftHolds, h1, hhalf, hshift]
  exact hnone.symm

section
variable {p : Params} {t : Nat} {s : State} (h : FrameInFlight p t s) (byte : Byte) (hbits : ShiftHolds byte s)
  (e : Nat) (level : Bool) (hel : 2 * e ≤ p.baudUs) (hbefore : 2 * t < 19 * p.baudUs)
  (hcell : (frameBits byte)[(t + e) / p.baudUs]? = some level)
include h hbits hel hcell

/-- Before the stop midpoint a DECODE at the level of the byte's current cell is quiet, and SHIFT goes on to hold it. -/
theorem FrameInFlight.decodeWith_carries (hstop : 2 * (t + e) < 19 * p.baudUs) :
    ∃ u, decodeWith e level s = .next u ∧ (u.eventKind, u.eventData) = (.noEvent, 0#8) ∧ FrameInFlight p (t + e) u
      ∧ ShiftHolds byte u := by
  have hstart (hfirst : t + e < p.baudUs) : level = false := by
    rw [Nat.div_eq_of_lt hfirst] at hcell
    exact (Option.some.inj hcell).symm
  obtain ⟨u, hu, hev, hflight, v, hquiet, rfl⟩ := h.decodeWith_quiet e level hel hstop fun _ => hstart
  refine ⟨_, hu, hev, hflight, hquiet.shiftHolds byte ?_ hbits⟩
  intro (h2 : 2 ≤ s.pos) (h9 : s.pos ≤ 9) hfull
  rw [h.cell_eq e (h.params ▸ hfull)] at hcell
  rcases (frameBits_getElem_eq_some byte _ _).mp hcell with ⟨hfirst, -⟩ | ⟨hlast, -⟩ | ⟨-, -, hdata⟩
  · omega
  · omega
  · exact hdata

include hbefore in
/-- At the stop midpoint SHIFT is the whole byte, and the stop cell's level delivers it (R107). -/
theorem FrameInFlight.decodeWith_delivers (hmid : 19 * p.baudUs ≤ 2 * (t + e)) :
    ∃ u, decodeWith e level s = .next u ∧ (u.eventKind, u.eventData) = (.byteDecoded, byte) := by
  obtain ⟨h10, hhalf, -⟩ := h.before_stop_midpoint (by omega)
  have hlevel : level = true := by
    rw [Nat.div_eq_of_lt_le (k := 9) (by omega) (by omega)] at hcell
    exact (Option.some.inj hcell).symm
  have hshift : s.shift = byte := by
    rw [ShiftHolds, h10, hhalf] at hbits
    exact hbits.trans (BitVec.ushiftRight_zero byte)
  have hstop := h.decodeWith_stop e level hel hmid
  rw [hlevel, hshift] at hstop
  rw [hlevel]
  exact hstop

end

/-- Settles O53: every DECODE before the stop midpoint keeps the frame's time and the bits of the byte in SHIFT. -/
theorem frameRoundTripDecodesTheByte : Obligations.FrameRoundTripDecodesTheByte := by
  intro s byte line es e hrun h1 hbt hhalf hshift hline hsmall hbefore hmid
  have hel := hsmall e List.mem_cons_self
  refine decodeLine_quiet_then line (fun t u => FrameInFlight s.p t u ∧ ShiftHolds byte u) es.sum e _ es
    (fun t u x hmem hx ⟨hu, hbits⟩ => ?_) (fun u ⟨hu, hbits⟩ => ?_) 0 s (Nat.zero_add _)
    ⟨.atStart s hrun h1 hbt hhalf, shiftHolds_atStart byte s h1 hhalf hshift⟩
  · exact hu.decodeWith_carries byte hbits x _ (hsmall x (List.mem_cons_of_mem e hmem)) (hline _ (by omega)) (by omega)
  · exact hu.decodeWith_delivers byte hbits e _ hel hbefore (hline _ (by omega)) hmid

end Sys2Proof.Machine
end

/-! ## 45_control_timebase.md: NOP, POLL and the timebase -/

section
/-! ### NOP, POLL, and what one CLK step writes (R70, R119, R120, R122, R123) -/

namespace Sys2Proof.Machine

/-- Settles O18: halted or running, NOP's only outcome is the state before it. -/
theorem nopChangesNothing : Obligations.NopChangesNothing := fun s => (execNop_next s s).mpr rfl

theorem polled_eq (s : State) :
    polled s = { s with elapsed := if s.ovf then s.p.quantumUs else 0, ovf := false } := by
  cases hovf : s.ovf <;> simp [polled, hovf]

/-- Settles O19: a running block's POLL leaves `polled`. -/
theorem pollTakesTheOverflow : Obligations.PollTakesTheOverflow :=
  fun s hrun => (unlessHalted_running s _ hrun).trans (congrArg _ (polled_eq s))

theorem tbCntClk_eq (s : State) : tbCntClk s = if s.tbCnt = s.p.quantumCycles - 1 then 0 else s.tbCnt + 1 := by
  simp [tbCntClk, tbWraps]

theorem ovfClk_eq (s : State) : ovfClk s = if s.tbCnt = s.p.quantumCycles - 1 then true else s.ovf := by
  simp [ovfClk, tbWraps]

/-- Settles O34: a legal OSC_SEL lets the step complete, and the pair of the oscillator is all that its outcome leaves
open. -/
theorem clkStepWritesItsFiveRegisters : Obligations.ClkStepWritesItsFiveRegisters := by
  refine ⟨fun s ⟨_, hosc, _⟩ => clkStep_completes s hosc, fun s t h => ?_⟩
  obtain ⟨o, -, rfl⟩ := (clkStep_next s t).mp h
  rw [tbCntClk_eq, ovfClk_eq, pscClk]

end Sys2Proof.Machine
end

section
/-! ### The timebase over many CLK steps (R120, R121) -/

namespace Sys2Proof.Machine

theorem runInputs_cons_next (i : Input) (rest : List Input) (s t : State) :
    runInputs (i :: rest) s = .next t ↔ ∃ u, runInput i s = .next u ∧ runInputs rest u = .next t := by
  rw [runInputs]
  cases runInput i s <;> simp

theorem runInputs_append_next (l₁ l₂ : List Input) (s t : State) :
    runInputs (l₁ ++ l₂) s = .next t ↔ ∃ u, runInputs l₁ s = .next u ∧ runInputs l₂ u = .next t := by
  rw [runInputs_append]
  cases runInputs l₁ s <;> simp

theorem runClks_succ_next (n : Nat) (s t : State) :
    runClks (n + 1) s = .next t ↔ ∃ u, clkStep s = .next u ∧ runClks n u = .next t :=
  runInputs_cons_next .clk (List.replicate n .clk) s t

/-- Any number of CLK steps writes the five registers that one writes (R122). -/
theorem runClks_frame (n : Nat) (s t : State) (h : runClks n s = .next t) :
    t = { s with psc := t.psc, oscCnt := t.oscCnt, toneOut := t.toneOut, tbCnt := t.tbCnt, ovf := t.ovf } := by
  induction n generalizing s with
  | zero =>
    cases h
    rfl
  | succ n ih =>
    obtain ⟨u, hu, ht⟩ := (runClks_succ_next n s t).mp h
    rw [ih u ht, clkStep_frame s u hu]

/-- The wrap at P_QUANTUM_CYCLES - 1 is counting modulo P_QUANTUM_CYCLES (R120). -/
theorem tbCntClk_eq_mod (s : State) (h : s.tbCnt < s.p.quantumCycles) :
    tbCntClk s = (s.tbCnt + 1) % s.p.quantumCycles := by
  rw [tbCntClk_eq]
  split
  next hlast => rw [hlast, Nat.sub_add_cancel (by omega), Nat.mod_self]
  next hmid => rw [Nat.mod_eq_of_lt (by omega)]

/-- `n + 1` cycles reach the end of a quantum in the first of them, or in the `n` from the counter that it leaves; once
OVF is set the rest add nothing (R121). -/
theorem ovfClk_or_wraps (s : State) (n : Nat) (h : s.tbCnt < s.p.quantumCycles) :
    (ovfClk s || decide (s.p.quantumCycles ≤ tbCntClk s + n))
      = (s.ovf || decide (s.p.quantumCycles ≤ s.tbCnt + (n + 1))) := by
  rw [ovfClk_eq, tbCntClk_eq]
  by_cases hlast : s.tbCnt = s.p.quantumCycles - 1
  · have hwraps : s.p.quantumCycles ≤ s.tbCnt + (n + 1) := by omega
    rw [if_pos hlast, Bool.true_or, decide_eq_true hwraps, Bool.or_true]
  · rw [if_neg hlast, if_neg hlast, Nat.add_right_comm, Nat.add_assoc]

/-- Settles O20, by induction on the steps: the first counts one on, and the rest go on from its counter and its OVF. -/
theorem timebaseAfterManyCycles : Obligations.TimebaseAfterManyCycles := by
  intro s t n htb h
  induction n generalizing s with
  | zero =>
    cases h
    simp [Nat.mod_eq_of_lt htb, htb]
  | succ n ih =>
    obtain ⟨u, hu, ht⟩ := (runClks_succ_next n s t).mp h
    obtain ⟨o, -, rfl⟩ := (clkStep_next s u).mp hu
    obtain ⟨hcnt, hovf⟩ := ih _ (tbCntClk_lt s htb) ht
    refine ⟨hcnt.trans ?_, hovf.trans (ovfClk_or_wraps s n htb)⟩
    change (tbCntClk s + n) % s.p.quantumCycles = _
    rw [tbCntClk_eq_mod s htb, Nat.mod_add_mod, Nat.add_right_comm, Nat.add_assoc]

end Sys2Proof.Machine
end

section
/-! ### The time between two POLLs (R121, R123, R151) -/

namespace Sys2Proof.Machine

theorem runInputs_poll (s : State) (hrun : s.halted = false) (rest : List Input) :
    runInputs (.cmd 0x60000000#32 :: rest) s = runInputs rest (polled s) :=
  runInputs_cons (.cmd _) rest s _ (runWord_poll s hrun)

/-- A POLL after `n` CLK steps, with OVF clear before them, finds one quantum if TB_CNT wrapped in them (R121, R123). -/
theorem poll_after_runClks (s t : State) (n : Nat) (htb : s.tbCnt < s.p.quantumCycles) (hrun : s.halted = false)
    (hovf : s.ovf = false) (h : runInputs (List.replicate n .clk ++ [.cmd 0x60000000#32]) s = .next t) :
    t.elapsed = if s.p.quantumCycles ≤ s.tbCnt + n then s.p.quantumUs else 0 := by
  obtain ⟨u, hu, hpoll⟩ := (runInputs_append_next _ _ s t).mp h
  obtain ⟨-, huovf⟩ := timebaseAfterManyCycles s u n htb hu
  have hframe := runClks_frame n s u hu
  have hup : u.p = s.p := by rw [hframe]
  have hurun : u.halted = false := by rw [hframe]; exact hrun
  rw [runInputs_poll u hurun] at hpoll
  cases hpoll
  simp [hup, huovf, hovf]

/-- One quantum or none is the smaller of 1 and the number of whole quanta. -/
theorem ite_reached_eq_mul_min_one_div (q m us : Nat) (hq : 0 < q) :
    (if q ≤ m then us else 0) = us * min 1 (m / q) := by
  by_cases h : q ≤ m
  · have hone : 1 ≤ m / q := (Nat.one_le_div_iff hq).mpr h
    rw [if_pos h, Nat.min_eq_left hone, Nat.mul_one]
  · rw [if_neg h, Nat.div_eq_of_lt (by omega), Nat.min_zero, Nat.mul_zero]

/-- Settles O21: the first POLL clears OVF and leaves TB_CNT; from a TB_CNT in range fewer than P_QUANTUM_CYCLES steps
wrap at most once, so one quantum is then all there was. -/
theorem pollLosesNoTimeWithinAQuantum : Obligations.PollLosesNoTimeWithinAQuantum := by
  intro s t n ⟨_, _, _, ⟨htb, _⟩, _⟩ hrun h
  rw [List.cons_append, runInputs_poll s hrun] at h
  have hfound : t.elapsed = s.p.quantumUs * min 1 ((s.tbCnt + n) / s.p.quantumCycles) := by
    rw [← ite_reached_eq_mul_min_one_div _ _ _ (by omega)]
    simpa using poll_after_runClks (polled s) t n (by simpa using htb) (by simpa using hrun) (polled_ovf s) h
  refine ⟨hfound, fun hn => ?_⟩
  have hwraps : (s.tbCnt + n) / s.p.quantumCycles < 2 := Nat.div_lt_of_lt_mul (by omega)
  rw [hfound, Nat.min_eq_right (by omega)]

end Sys2Proof.Machine
end

/-! ## 60_exceptions.md: the faults, the halt and their priority -/

section
/-! ### Illegal words, and TXBIT without the transmit framer (R130, R136) -/

namespace Sys2Proof

/-- Of all commands only TXBIT asks for the framer (R136). -/
theorem wellFormed_of_ne_txbit (tx : Bool) (i : Instr) (h : i ≠ .txbit) : i.wellFormed tx = true := by
  cases i with
  | nop | synth | apply | sample | decode | poll => rfl
  | txbit => exact absurd rfl h

/-- A word other than TXBIT's decodes, if at all, to the same command with the framer and without it. -/
theorem decode_ok_of_ne_txbit_word (tx tx' : Bool) (w : Word) (i : Instr) (hw : w ≠ encode .txbit)
    (h : decode tx w = .ok i) : decode tx' w = .ok i := by
  obtain ⟨rfl, -⟩ := (decode_ok_iff tx w i).mp h
  have hi : i ≠ .txbit := fun hi => hw (congrArg encode hi)
  exact (decode_ok_iff tx' _ i).mpr ⟨rfl, wellFormed_of_ne_txbit tx' i hi⟩

namespace Machine

/-- An illegal word's CMD step on a running block is its fault entry (R130). -/
theorem runWord_of_decode_error_running (w : Word) (e : DecodeError) (s : State) (hrun : s.halted = false)
    (h : decode s.p.txPresent w = .error e) : runWord w s = .next (raiseFault .illegalCommand w s) := by
  rw [runWord_of_decode_error w e s h, illegalCommand, unlessHalted_running s _ hrun]

end Machine

/-- Settles O5: the word is TXBIT's encoding, and no other command's legality depends on the framer. -/
theorem txbitLegalOnlyWithTheFramer : Obligations.TxbitLegalOnlyWithTheFramer := by
  have hword : (0x30000000#32 : Word) = encode .txbit := rfl
  rw [Obligations.TxbitLegalOnlyWithTheFramer, hword]
  refine ⟨fun w hw => ⟨?_, ?_⟩, ⟨.txbit, decodeOfEncodeIsTheCommand true .txbit rfl⟩,
    ⟨.unitAbsent, Machine.decode_encode_txbit_absent⟩, fun s hrun htx => ?fault⟩
  · exact Exists.imp fun i => decode_ok_of_ne_txbit_word true false w i hw
  · exact Exists.imp fun i => decode_ok_of_ne_txbit_word false true w i hw
  case fault =>
    have hdec : decode s.p.txPresent (encode .txbit) = .error .unitAbsent := by
      rw [htx]
      exact Machine.decode_encode_txbit_absent
    exact Machine.runWord_of_decode_error_running _ _ s hrun hdec

end Sys2Proof
end

section
/-! ### While halted (R133) -/

namespace Sys2Proof.Machine

theorem illegalCommand_halted (w : Word) (s : State) (h : s.halted = true) : illegalCommand w s = .next s :=
  unlessHalted_halted s _ h

/-- Every command stands behind the halt gate; TXBIT without the framer stands behind the illegal command's. -/
theorem exec_halted (i : Instr) (s : State) (h : s.halted = true) : exec i s = .next s := by
  cases i with
  | nop | synth | apply | sample | decode | poll => exact unlessHalted_halted s _ h
  | txbit => exact (execTxbit_next s s).mpr (.inl ⟨h, rfl⟩)

theorem runWord_halted (w : Word) (s : State) (h : s.halted = true) : runWord w s = .next s := by
  cases hdec : decode s.p.txPresent w with
  | ok i => rw [runWord_of_decode_ok w i s hdec, exec_halted i s h]
  | error e => rw [runWord_of_decode_error w e s hdec, illegalCommand_halted w s h]

/-- A CLK step neither reads nor writes the fault registers. -/
theorem clkStep_raiseFault (c : FaultCode) (w : Word) (s t : State) (h : clkStep s = .next t) :
    clkStep (raiseFault c w s) = .next (raiseFault c w t) := by
  obtain ⟨o, ho, rfl⟩ := (clkStep_next s t).mp h
  exact (clkStep_next _ _).mpr ⟨o, ho, rfl⟩

/-- Settles O10: a CMD step is stopped at the halt gate, and the clock does not read the halt. -/
theorem haltedIgnoresEveryCommand : Obligations.HaltedIgnoresEveryCommand :=
  ⟨fun s w => runWord_halted w s, fun s i => exec_halted i s, fun s t c w => clkStep_raiseFault c w s t⟩

end Sys2Proof.Machine
end

section
/-! ### Only reset leaves the halt (R134, R146) -/

namespace Sys2Proof.Machine

/-- `t` has the fault registers of `s`: HALTED, FAULT and FAULT_CMD. -/
def SameFault (s t : State) : Prop :=
  t.halted = s.halted ∧ t.faultCode = s.faultCode ∧ t.faultCmd = s.faultCmd

theorem clkStep_sameFault (s t : State) (h : clkStep s = .next t) : SameFault s t := by
  rw [clkStep_frame s t h]
  exact ⟨rfl, rfl, rfl⟩

/-- Of the agents only CMD, while running, and reset write the fault registers (R132, R146). -/
theorem runInput_sameFault_of_halted (i : Input) (s t : State) (hhalt : s.halted = true) (hi : i ≠ .reset)
    (h : runInput i s = .next t) : SameFault s t := by
  cases i with
  | clk => exact clkStep_sameFault s t h
  | cmd w =>
    cases (runWord_halted w s hhalt).symm.trans h
    exact ⟨rfl, rfl, rfl⟩
  | rxLevel b =>
    cases h
    exact ⟨rfl, rfl, rfl⟩
  | reset => exact absurd rfl hi

/-- Settles O11: no other agent writes the fault registers of a halted block, and reset clears all three. -/
theorem onlyResetLeavesTheHalt : Obligations.OnlyResetLeavesTheHalt := by
  refine ⟨fun s t h hhalt hreset => ?kept, fun s rest hin => ?cleared⟩
  case kept =>
    have hsame : SameFault s t := by
      cases hin : s.inputs with
      | nil => exact clkStep_sameFault s t (step_nil s hin ▸ h)
      | cons i rest =>
        have hi : i ≠ .reset := by simpa [hin] using hreset
        exact runInput_sameFault_of_halted i { s with inputs := rest } t hhalt hi (step_cons s i rest hin ▸ h)
    obtain ⟨hh, hcode, hcmd⟩ := hsame
    exact ⟨hh.trans hhalt, hcode, hcmd⟩
  case cleared =>
    exact ⟨_, step_cons s .reset rest hin, rfl, rfl, rfl⟩

end Sys2Proof.Machine
end

section
/-! ### The priority of faults (R130, R132, R135) -/

namespace Sys2Proof.Machine

/-- A well-formed command that halts a running block is a SYNTH with no configuration to write (R63, R130): HALTED is
outside every other command's frame. -/
theorem exec_halts (i : Instr) (s t : State) (hrun : s.halted = false) (hwf : i.wellFormed s.p.txPresent = true)
    (h : exec i s = .next t) (hhalt : t.halted = true) :
    (∃ k hz, i = .synth k hz) ∧ t = raiseFault .configUnreachable (encode i) s := by
  have hkept (hsame : t.halted = s.halted) : False := by simp [hhalt, hrun] at hsame
  cases i with
  | synth k hz =>
    refine ⟨⟨k, hz, rfl⟩, ?_⟩
    rw [exec_synth_running s k hz hrun] at h
    cases h
    rcases synthesized_cases s k hz with ⟨c, -, hw⟩ | ⟨-, hf⟩
    · rw [hw] at hkept
      exact (hkept (writeSlot_halted s k c)).elim
    · exact hf
  | nop => exact (hkept (by rw [(execNop_next s t).mp h])).elim
  | apply k => exact (hkept (by rw [execApply_frame k s t h])).elim
  | txbit => exact (hkept (by rw [execTxbit_frame s t h hwf])).elim
  | sample => exact (hkept (by rw [execSample_frame s t h])).elim
  | decode => exact (hkept (by rw [execDecode_frame s t h])).elim
  | poll => exact (hkept (by rw [execPoll_frame s t h])).elim

/-- Settles O12: the halt gate first, then the decoder's refusal, then SYNTH's own fault, whose FAULT_CMD is the word. -/
theorem faultPriority : Obligations.FaultPriority := by
  refine ⟨fun s w => runWord_halted w s, fun s w e => runWord_of_decode_error_running w e s,
    fun s t w i hrun hdec h hhalt => ?synth⟩
  case synth =>
    rw [runWord_of_decode_ok w i s hdec] at h
    obtain ⟨rfl, hwf⟩ := (decode_ok_iff _ w i).mp hdec
    exact exec_halts i s t hrun hwf h hhalt

end Sys2Proof.Machine
end

/-! ## 70_reset_and_hazards.md: reset and the parameters -/

section
/-! ### The parameters are constant (R144) -/

namespace Sys2Proof.Machine

theorem clkStep_par (s t : State) (h : clkStep s = .next t) : t.par = s.par := by
  rw [clkStep_frame s t h]

theorem illegalCommand_par (w : Word) (s t : State) (h : illegalCommand w s = .next t) : t.par = s.par := by
  rw [illegalCommand_frame w s t h]

theorem exec_par (i : Instr) (s t : State) (h : exec i s = .next t) : t.par = s.par := by
  obtain ⟨hpar, -⟩ := exec_receiver_writers i s t h
  exact hpar

theorem runWord_par (w : Word) (s t : State) (h : runWord w s = .next t) : t.par = s.par := by
  rcases (runWord_next w s t).mp h with ⟨i, -, h⟩ | ⟨e, -, h⟩
  · exact exec_par i s t h
  · exact illegalCommand_par w s t h

/-- Settles O17: the parameters are in the frame of every agent, and reset carries them over. -/
theorem noStepChangesTheParameters : Obligations.NoStepChangesTheParameters := by
  intro s t h
  rcases (step_next s t).mp h with ⟨-, h⟩ | ⟨rest, -, h⟩ | ⟨w, rest, -, h⟩ | ⟨b, rest, -, rfl⟩ | ⟨rest, -, rfl⟩
  · exact clkStep_par s t h
  · exact clkStep_par { s with inputs := rest } t h
  · exact runWord_par w { s with inputs := rest } t h
  · exact driveRx_par { s with inputs := rest } b
  · exact resetWith_par s.par s.rxIn rest

end Sys2Proof.Machine
end

section
/-! ### Reset (R144, R145) -/

namespace Sys2Proof.Machine

theorem step_reset (s : State) (rest : List Input) (h : s.inputs = .reset :: rest) :
    step s = .next (State.resetWith s.par s.rxIn rest) :=
  step_cons s .reset rest h

@[simp] theorem readSlot_resetWith (par : LegalParams) (rx : Bool) (ins : List Input) (k : Slot) :
    readSlot (State.resetWith par rx ins) k = ToneConfig.disabled := by
  cases k <;> rfl

/-- BUSY is low after reset in a block that has it: Idle is not in progress (R34, R145). -/
theorem busyPin_resetWith (par : LegalParams) (rx : Bool) (ins : List Input) (h : par.val.busyPresent = true) :
    busyPin (State.resetWith par rx ins) = some false :=
  if_pos h

/-- Settles O13: the step is `State.resetWith`, which writes R145's table whatever the state before, and is legal. -/
theorem resetRestoresEveryRegister : Obligations.ResetRestoresEveryRegister := by
  intro s rest hin
  have hbusy := busyPin_resetWith s.par s.rxIn rest
  have hlegal := resetWith_legal s.par s.rxIn rest
  refine ⟨_, step_reset s rest hin, readSlot_resetWith s.par s.rxIn rest, ?registers⟩
  case registers => simpa [winSize, statusOf] using ⟨hbusy, hlegal⟩

/-- Settles O14: both are `State.resetWith`, legal for all legal parameters, RX_IN levels and inputs. -/
theorem resetStateIsLegal : Obligations.ResetStateIsLegal :=
  ⟨resetWith_legal Config.params Config.rxInAtPowerOn [], resetWith_legal⟩

end Sys2Proof.Machine
end
